-- ==== Sys2Proof/Word.lean ====
section
/-! DEFINITION. The plain values of the block: bytes, levels, directions, pulses (`00_scope.md` R9, R10). -/

namespace Sys2Proof

/-- A byte: bit 0 is the least significant bit (R9). -/
abbrev Byte := BitVec 8

/-- A level of the data line (R10): `LOW` is 0, `HIGH` is 1. -/
inductive Level where
  | low
  | high
  deriving DecidableEq, Repr, Inhabited

/-- The level of a bit value: "bit value = line level" (R148). -/
def Level.ofBool : Bool → Level
  | false => .low
  | true => .high

/-- The bit of a level (R10). -/
def Level.toBool : Level → Bool
  | .low => false
  | .high => true

/-- The direction of the data pad (R10): `INPUT` is 0, `OUTPUT` is 1. -/
inductive Dir where
  | input
  | output
  deriving DecidableEq, Repr, Inhabited

/-- The bit of a direction (R10). -/
def Dir.toBool : Dir → Bool
  | .input => false
  | .output => true

/-- The pin-mux selection (R31): `SLEEP` is 0, `ACTIVE` is 1. -/
inductive PinState where
  | sleep
  | active
  deriving DecidableEq, Repr, Inhabited

/-- The bit of the pin-mux selection in status register 0 (R31). -/
def PinState.toBool : PinState → Bool
  | .sleep => false
  | .active => true

/-- A pulse `(level, n)`: the level for `n` ticks (R10). A pulse sequence is a list of pulses. -/
structure Pulse where
  level : Level
  ticks : Nat
  deriving DecidableEq, Repr

end Sys2Proof
end

