-- ==== Sys2Proof/Machine/Codes.lean ====
section
/-! DEFINITION. The state codes of `30_encoding.md` R84 and the command words of R82. -/

namespace Sys2Proof.Machine

abbrev cIdle : BitVec 5 := 0
abbrev cMpingStart : BitVec 5 := 1
abbrev cMpingEnd : BitVec 5 := 2
abbrev cWaitSping : BitVec 5 := 3
abbrev cSpingStart : BitVec 5 := 4
abbrev cSpingEnd : BitVec 5 := 5
abbrev cRequestCtrl : BitVec 5 := 6
abbrev cStartTransfer : BitVec 5 := 7
abbrev cSendData : BitVec 5 := 8
abbrev cEndTransfer : BitVec 5 := 9
abbrev cSendEndMping : BitVec 5 := 10
abbrev cWaitData : BitVec 5 := 11
abbrev cRecvDataStart : BitVec 5 := 12
abbrev cRecvDataEnd : BitVec 5 := 13
abbrev cSendCfmMpingStart : BitVec 5 := 14
abbrev cSendCfmMpingEnd : BitVec 5 := 15
abbrev cWaitCfmSping : BitVec 5 := 16
abbrev cRecvCfmSpingStart : BitVec 5 := 17
abbrev cRecvCfmSpingEnd : BitVec 5 := 18
abbrev cFinish : BitVec 5 := 19
abbrev cOk : BitVec 5 := 20
abbrev cError : BitVec 5 := 21

/-- `BUSY` of a state code: none of `IDLE`, `OK`, `ERROR` (R40). -/
def busyCode (c : BitVec 5) : Bool := c != cIdle && c != cOk && c != cError

/-- The codes that name a state: 0 to 21 (R84). -/
def legalCode (c : BitVec 5) : Bool := decide (c.toNat ≤ 21)

/-- The word of `NOP` (R82). -/
abbrev wordNop : BitVec 16 := 0x0000
/-- The word of `SWON` (R82). -/
abbrev wordSwon : BitVec 16 := 0x1000
/-- The word of `SWOFF` (R82). -/
abbrev wordSwoff : BitVec 16 := 0x2000
/-- The word of `LOADB b` (R82): `0x3000 + b`. -/
def wordLoadb (b : Byte) : BitVec 16 := 0x3000 + b.setWidth 16
/-- The word of `START` (R82). -/
abbrev wordStart : BitVec 16 := 0x4000
/-- The word of `DETACH` (R82). -/
abbrev wordDetach : BitVec 16 := 0x5000
/-- The word of `FORCEOK` (R82). -/
abbrev wordForceok : BitVec 16 := 0x6000
/-- The word of `RD n` (R82): `0x7000 + n`. -/
def wordRd (n : BitVec 4) : BitVec 16 := 0x7000 + n.setWidth 16

end Sys2Proof.Machine
end

