-- ==== Sys2Proof/Machine/Flags.lean ====
section
/-! DEFINITION. The flag computations: parity (`42_byte_transfer.md` R140, `10_state.md` R26) and the error flag (R35). -/

namespace Sys2Proof.Machine

/-- The 1 bits among the lowest `n` bits of a byte. -/
def popcountBelow (b : Byte) : Nat → Nat
  | 0 => 0
  | n + 1 => (b.getLsbD n).toNat + popcountBelow b n

/-- `popcount(b)`: the number of 1 bits of a byte (R11). -/
def popcount (b : Byte) : Nat := popcountBelow b 8

/-- `parity(b) = popcount(b) mod 2` (R140): the value of `PARITY` for `PENDING_BYTE = b` (R26; conflict C3). -/
def parity (b : Byte) : Bool := popcount b % 2 == 1

/-- The value of `ERR` for a value of `LAST_ERROR`: set iff an error is recorded (R35). -/
def errOf (code : BitVec 3) : Bool := code != 0

end Sys2Proof.Machine
end

