-- ==== Sys2Proof/Config.lean ====
section
/-! DEFINITION. The configuration `Cfg` (`00_scope.md` R7) and the free values of the environment (U4, U6). -/

namespace Sys2Proof

/-- The configuration (R7): the parameters that an implementation fixes. The parameters whose value R7 states
("fixed") and whose bounds no rule varies are the constants of `Machine/Params.lean` (log 3). -/
structure Cfg where
  /-- `UI_NS`: the Unit Interval in nanoseconds. -/
  uiNs : Nat
  /-- `WAIT_SPING_COUNT`: the SPING wait window in samples. -/
  waitSpingCount : Nat
  /-- `SPING_MIN_UI`: the least valid SPING width. -/
  spingMinUi : Nat
  /-- `SPING_MAX_UI`: the greatest valid SPING width. -/
  spingMaxUi : Nat
  /-- `AFC_COMM_CNT`: rounds per handshake. -/
  afcCommCnt : Nat
  /-- `AFC_RETRY_MAX`: retries of the whole handshake (host). -/
  afcRetryMax : Nat
  /-- `VBUS_RETRY_MAX`: VBUS confirmation polls (host). -/
  vbusRetryMax : Nat
  /-- `SWITCH_SETTLE_NS`: the wait after asserting the switch line (host). -/
  switchSettleNs : Nat
  /-- `RETRY_WAIT_NS`: the wait before a retry (host). -/
  retryWaitNs : Nat
  /-- The shape function `start_mark` at 0 (R147, U1). -/
  startMark0 : List Pulse
  /-- The shape function `start_mark` at 1 (R147, U1). -/
  startMark1 : List Pulse
  /-- The shape function `trailer_pulses` at 0 (R141, U2). -/
  trailer0 : List Pulse
  /-- The shape function `trailer_pulses` at 1 (R141, U2). -/
  trailer1 : List Pulse
  deriving DecidableEq, Repr

/-- FREE VALUE (R37, U4; log 5): `LineIn(t)`, the adapter's level at tick `t`, where State's stream of levels has
ended. Nothing constrains it. -/
opaque Config.lineIn : Nat → Level

/-- FREE VALUE (R221, U6; log 5): the VBUS reading at tick `t` in millivolts, where State's stream of readings has
ended. Nothing constrains it. -/
opaque Config.vbus : Nat → Int

end Sys2Proof
end

