-- ==== Sys2Proof/Machine/Params.lean ====
section
/-! DEFINITION. The fixed parameters of `00_scope.md` R7, the reference configuration REF, the derived tick counts and the
well-formedness of a configuration (R8). -/

namespace Sys2Proof.Machine

/-- `UI_TICKS`: ticks per UI (R7, R111). -/
abbrev uiTicks : Nat := 4
/-- `MPING_UI`: a master ping in UI (R7, R142). -/
abbrev mpingUi : Nat := 16
/-- `RECV_DATA_UI`: the receive window in UI (R7, R152). -/
abbrev recvDataUi : Nat := 46
/-- The HIGH time of a master ping in ticks: `MPING_UI * U = 64` (R142). -/
abbrev mpingTicks : Nat := mpingUi * uiTicks
/-- The wait of `RECV_DATA_START` in ticks: `RECV_DATA_UI * U = 184` (R179). -/
abbrev recvDataTicks : Nat := recvDataUi * uiTicks
/-- `T_RELEASE`: ping falling edge to line release (R7). -/
abbrev tRelease : Nat := 1
/-- `T_FIRSTPOLL`: line release to first SPING sample (R7). -/
abbrev tFirstPoll : Nat := 4
/-- `T_POLL`: the SPING sample period (R7). -/
abbrev tPoll : Nat := 4
/-- `T_TURN`: end of a valid SPING to the next phase (R7). -/
abbrev tTurn : Nat := 4
/-- `T_LEADIN`: the lead-in before the start mark (R7). -/
abbrev tLeadin : Nat := 4
/-- `T_GUARD`: the LOW guard after the trailer (R7). -/
abbrev tGuard : Nat := 4
/-- `T_WAITDATA`: release after the end ping to the start of the receive window (R7). -/
abbrev tWaitData : Nat := 4
/-- `T_SETTLE`: the settle time of `RECV_DATA_END` (R7). -/
abbrev tSettle : Nat := 4
/-- `VBUS_POLL_NS` (R7). -/
abbrev vbusPollNs : Nat := 20000000
/-- The inter-round delay, 38 ms, in nanoseconds (R7, R186). -/
abbrev roundGapNs : Nat := 38000000
/-- `VBUS_5V_MAX_MV` (R7). -/
abbrev vbus5vMaxMv : Int := 5500
/-- `VBUS_9V_MIN_MV` (R7). -/
abbrev vbus9vMinMv : Int := 7500
/-- `VBUS_PRESENT_MV` (R7). -/
abbrev vbusPresentMv : Int := 3500
/-- `CTRL_5V` (R7, R87). -/
abbrev ctrl5v : Byte := 0x08
/-- `CTRL_9V` (R7, R87). -/
abbrev ctrl9v : Byte := 0x46

/-- The default of `start_mark` (R147): a cycle is HIGH then LOW; one tick each for bit 7 = 1, two each for bit 7 = 0. -/
def defaultStartMark : Bool → List Pulse
  | true => [⟨.high, 1⟩, ⟨.low, 1⟩]
  | false => [⟨.high, 2⟩, ⟨.low, 2⟩]

/-- The default of `trailer_pulses` (R141): one pulse of one UI if the parity is 0, three quarter-UI pulses if it is 1. -/
def defaultTrailer : Bool → List Pulse
  | false => [⟨.high, uiTicks⟩]
  | true => [⟨.low, 1⟩, ⟨.high, 1⟩, ⟨.low, 1⟩]

/-- The reference configuration REF (R7, last column; U9): it binds nothing. -/
def cfgRef : Cfg where
  uiNs := 160000
  waitSpingCount := 5
  spingMinUi := 10
  spingMaxUi := 20
  afcCommCnt := 9
  afcRetryMax := 10
  vbusRetryMax := 5
  switchSettleNs := 0
  retryWaitNs := 0
  startMark0 := defaultStartMark false
  startMark1 := defaultStartMark true
  trailer0 := defaultTrailer false
  trailer1 := defaultTrailer true

/-- `start_mark` of a configuration (R147, U1). -/
def startMark (c : Cfg) (b7 : Bool) : List Pulse := if b7 then c.startMark1 else c.startMark0

/-- `trailer_pulses` of a configuration (R141, U2). -/
def trailerPulses (c : Cfg) (p : Bool) : List Pulse := if p then c.trailer1 else c.trailer0

/-- `TICK_NS = UI_NS / 4` (R7, R111). -/
def tickNs (c : Cfg) : Nat := c.uiNs / uiTicks

/-- `ceil(ns / TICK_NS)`: a time in nanoseconds as ticks, rounded up (R7, R222). -/
def ticksOfNs (c : Cfg) (ns : Nat) : Nat := (ns + tickNs c - 1) / tickNs c

/-- `ROUND_GAP_TICKS = ceil(38_000_000 / TICK_NS)` (R7, R111). -/
def roundGapTicks (c : Cfg) : Nat := ticksOfNs c roundGapNs

/-- `SWITCH_SETTLE` in ticks (R222). -/
def switchSettleTicks (c : Cfg) : Nat := ticksOfNs c c.switchSettleNs

/-- `RETRY_WAIT` in ticks (R222). -/
def retryWaitTicks (c : Cfg) : Nat := ticksOfNs c c.retryWaitNs

/-- `VBUS_POLL` in ticks (R222). -/
def vbusPollTicks (c : Cfg) : Nat := ticksOfNs c vbusPollNs

/-- The greatest value of `TIMER` (R33). -/
def timerMax (c : Cfg) : Nat := max (roundGapTicks c) (max mpingTicks recvDataTicks)

/-- A pulse has `n >= 1` ticks (R10), and no more than R33 lets `TIMER` hold (log 4). -/
def pulseOk (c : Cfg) (p : Pulse) : Bool := decide (1 ≤ p.ticks) && decide (p.ticks ≤ timerMax c)

/-- A start mark is a list of 2 pulses (R174). -/
def startMarkOk (c : Cfg) (l : List Pulse) : Bool := decide (l.length = 2) && l.all (pulseOk c)

/-- A trailer has at least one pulse and so few that `PHASE_COUNTER` keeps the bound 8 of R33 (log 4). -/
def trailerOk (c : Cfg) (l : List Pulse) : Bool :=
  decide (1 ≤ l.length) && decide (l.length ≤ 7) && l.all (pulseOk c)

/-- A well-formed configuration (R8); the conditions of R8 on the fixed parameters hold by their values. The shape functions
are lists of pulses as R10, R174 and R33 ask (log 4). -/
def cfgWf (c : Cfg) : Bool :=
  decide (0 < c.uiNs) && decide (c.uiNs % 4 = 0)
    && decide (1 ≤ c.waitSpingCount) && decide (c.waitSpingCount ≤ 255)
    && decide (1 ≤ c.spingMinUi) && decide (c.spingMinUi ≤ c.spingMaxUi) && decide (c.spingMaxUi ≤ 254)
    && decide (1 ≤ c.afcCommCnt) && decide (c.afcCommCnt ≤ 255)
    && decide (1 ≤ roundGapTicks c) && decide (roundGapTicks c < 2 ^ 32)
    && decide (1 ≤ c.vbusRetryMax)
    && startMarkOk c c.startMark0 && startMarkOk c c.startMark1
    && trailerOk c c.trailer0 && trailerOk c c.trailer1

end Sys2Proof.Machine
end

