-- ==== Sys2Proof/Machine/Wire.lean ====
section
/-! DEFINITION. The bit/byte transfer layer as pure functions, independent of the state machine (`42_byte_transfer.md`,
R140 to R152). -/

namespace Sys2Proof.Machine

/-- `ping` with the tick of LOW that follows it before the release (R142, R143). -/
def pingPulses : List Pulse := [⟨.high, mpingTicks⟩, ⟨.low, tRelease⟩]

/-- `leadin` (R146). -/
def leadinPulses : List Pulse := [⟨.low, tLeadin⟩]

/-- One data slot, `(b, U)` (R148). -/
def bitPulses (b : Bool) : List Pulse := [⟨.ofBool b, uiTicks⟩]

/-- `data_bits` of the `n` lowest bits, the highest first. -/
def dataBitsBelow (b : Byte) : Nat → List Pulse
  | 0 => []
  | n + 1 => bitPulses (b.getLsbD n) ++ dataBitsBelow b n

/-- `data_bits(b)`: bit 7 to bit 0, one UI each (R148). -/
def dataBits (b : Byte) : List Pulse := dataBitsBelow b 8

/-- The parity slot `(p, U)` (R149). -/
def paritySlotPulses (p : Bool) : List Pulse := [⟨.ofBool p, uiTicks⟩]

/-- The guard `(LOW, T_GUARD)` (R149). -/
def guardPulses : List Pulse := [⟨.low, tGuard⟩]

/-- `end_seq(p)`: parity slot, trailer, guard (R149). -/
def endSeq (c : Cfg) (p : Bool) : List Pulse := paritySlotPulses p ++ trailerPulses c p ++ guardPulses

/-- The frame of a byte with a given parity slot (R89): lead-in, start mark, bits 7..0, parity slot, trailer, guard. -/
def frameWith (c : Cfg) (b : Byte) (p : Bool) : List Pulse :=
  leadinPulses ++ startMark c (b.getLsbD 7) ++ dataBits b ++ endSeq c p

/-- `frame(b)` (R150). -/
def frame (c : Cfg) (b : Byte) : List Pulse := frameWith c b (parity b)

/-- `levels(seq)`: one level per tick (R150). -/
def levels : List Pulse → List Level
  | [] => []
  | p :: ps => List.replicate p.ticks p.level ++ levels ps

/-- The ticks of a pulse sequence. -/
def pulseTicks : List Pulse → Nat
  | [] => 0
  | p :: ps => p.ticks + pulseTicks ps

/-- SPING validity of a sampled width (R144). -/
def spingValid (c : Cfg) (w : Nat) : Bool := decide (c.spingMinUi ≤ w) && decide (w ≤ c.spingMaxUi)

/-- What `recv_sping` (R145) answers for a list of samples. -/
inductive SpingResult where
  /-- `Valid(w)`. -/
  | valid (w : Nat)
  /-- `Err(SPING_ERR_<code>)`, with the count at which the error was detected. -/
  | err (code : BitVec 3) (count : Nat)
  /-- The samples ended before a decision. -/
  | undecided
  deriving DecidableEq, Repr

/-- The loop of `recv_sping` after the first HIGH sample (R145), `w` HIGH samples counted. -/
def recvSpingHigh (c : Cfg) (w : Nat) : List Level → SpingResult
  | [] => .undecided
  | .high :: ss => if w + 1 > c.spingMaxUi then .err 3 (w + 1) else recvSpingHigh c (w + 1) ss
  | .low :: _ => if w < c.spingMinUi then .err 2 w else .valid w

/-- The wait window of `recv_sping` (R145), `g` LOW samples counted. -/
def recvSpingLow (c : Cfg) (g : Nat) : List Level → SpingResult
  | [] => .undecided
  | .high :: ss => recvSpingHigh c 1 ss
  | .low :: ss => if g + 1 ≥ c.waitSpingCount then .err 1 (g + 1) else recvSpingLow c (g + 1) ss

/-- `recv_sping(s)` (R145) on a finite list of samples `s_1, s_2, ...`. -/
def recvSping (c : Cfg) (s : List Level) : SpingResult := recvSpingLow c 0 s

/-- `v` from index `n` on has four equal levels; their value. -/
def slotAt (v : List Level) (n : Nat) : Option Level :=
  match v.drop n with
  | a :: b :: c :: d :: _ => if b = a ∧ c = a ∧ d = a then some a else none
  | _ => none

/-- The slot values `x_0 .. x_(k-1)` from index `d0` on, each four equal levels (R151). -/
def slotsFrom (v : List Level) (d0 : Nat) : Nat → Option (List Bool)
  | 0 => some []
  | k + 1 =>
    match slotAt v d0, slotsFrom v (d0 + 4) k with
    | some l, some ls => some (l.toBool :: ls)
    | _, _ => none

/-- The number of consecutive HIGH ticks at the head of a list. -/
def highRun : List Level → Nat
  | .high :: v => highRun v + 1
  | _ => 0

/-- The index of the first HIGH tick, the length of the list if there is none. -/
def firstHigh : List Level → Nat
  | .low :: v => firstHigh v + 1
  | _ => 0

/-- The number whose bits are given, the first one the most significant. -/
def byteOfBits (l : List Bool) : Byte := l.foldl (fun a x => (a <<< 1) ||| (if x then 1 else 0)) 0

/-- What `decode_frame` answers: the byte, the parity slot, and whether the slot is the byte's parity (R151). -/
structure FrameResult where
  byte : Byte
  p : Bool
  parityOk : Bool
  deriving DecidableEq, Repr

/-- `decode_frame(v)` (R151); `none` is `FrameError`. -/
def decodeFrame (v : List Level) : Option FrameResult :=
  let s := firstHigh v
  let h := highRun (v.drop s)
  if h ≠ 1 ∧ h ≠ 2 then none
  else if ((v.drop (s + h)).take h) ≠ List.replicate h .low then none
  else
    let d0 := s + 2 * h
    match slotsFrom v d0 8, slotAt v (d0 + 32) with
    | some xs, some pl =>
      let e := d0 + 36
      let trailer := if pl = .low then [Level.high, .high, .high, .high] else [.low, .high, .low]
      if xs.head? ≠ some (decide (h = 1)) then none
      else if (v.drop e).take trailer.length ≠ trailer then none
      else some ⟨byteOfBits xs, pl.toBool, pl.toBool == parity (byteOfBits xs)⟩
    | _, _ => none

end Sys2Proof.Machine
end

