-- ==== Sys2Proof/Syntax.lean ====
section
/-! DEFINITION. The instructions: one constructor per row of `spec/opcode_table.json` (`30_encoding.md` R80, R96). -/

namespace Sys2Proof

/-- The instructions of the block, in the table's order: 8 host commands (format `CMD`), 22 state handlers (format
`STATE`), 11 wire symbols and 4 whole frames (format `WIRE`). -/
inductive Instr where
  /-- `NOP`, R202. -/
  | nop
  /-- `SWON`, R203. -/
  | swon
  /-- `SWOFF`, R209. -/
  | swoff
  /-- `LOADB imm8`, R204. -/
  | loadb (imm : Byte)
  /-- `START`, R205. -/
  | start
  /-- `DETACH`, R206. -/
  | detach
  /-- `FORCEOK`, R207. -/
  | forceok
  /-- `RD n`, R208: the encoding has four bits of register number (R86, R92). -/
  | rd (n : BitVec 4)
  /-- Handler of `IDLE`, code 0, R167. -/
  | idle
  /-- Handler of `MPING_START`, code 1, R168. -/
  | mpingStart
  /-- Handler of `MPING_END`, code 2, R169. -/
  | mpingEnd
  /-- Handler of `WAIT_SPING`, code 3, R170. -/
  | waitSping
  /-- Handler of `SPING_START`, code 4, R171. -/
  | spingStart
  /-- Handler of `SPING_END`, code 5, R172. -/
  | spingEnd
  /-- Handler of `REQUEST_CTRL`, code 6, R173. -/
  | requestCtrl
  /-- Handler of `START_TRANSFER`, code 7, R174. -/
  | startTransfer
  /-- Handler of `SEND_DATA`, code 8, R175. -/
  | sendData
  /-- Handler of `END_TRANSFER`, code 9, R176. -/
  | endTransfer
  /-- Handler of `SEND_END_MPING`, code 10, R177. -/
  | sendEndMping
  /-- Handler of `WAIT_DATA`, code 11, R178. -/
  | waitData
  /-- Handler of `RECV_DATA_START`, code 12, R179. -/
  | recvDataStart
  /-- Handler of `RECV_DATA_END`, code 13, R180. -/
  | recvDataEnd
  /-- Handler of `SEND_CFM_MPING_START`, code 14, R181. -/
  | sendCfmMpingStart
  /-- Handler of `SEND_CFM_MPING_END`, code 15, R182. -/
  | sendCfmMpingEnd
  /-- Handler of `WAIT_CFM_SPING`, code 16, R183. -/
  | waitCfmSping
  /-- Handler of `RECV_CFM_SPING_START`, code 17, R184. -/
  | recvCfmSpingStart
  /-- Handler of `RECV_CFM_SPING_END`, code 18, R185. -/
  | recvCfmSpingEnd
  /-- Handler of `FINISH`, code 19, R186. -/
  | finish
  /-- Handler of `OK`, code 20, R187. -/
  | ok
  /-- Handler of `ERROR`, code 21, R188. -/
  | error
  /-- Symbol `MPING`, R142. -/
  | mping
  /-- Symbol `SPING`: one UI of the slave's ping, R144. -/
  | sping
  /-- Symbol `LEADIN`, R146. -/
  | leadin
  /-- Symbol `START_MARK(1)`, R147. -/
  | startMark1
  /-- Symbol `START_MARK(0)`, R147. -/
  | startMark0
  /-- Symbol `BIT(b)`, R148. -/
  | bit (b : Bool)
  /-- Symbol `PARITY_SLOT(p)`, R149. -/
  | paritySlot (p : Bool)
  /-- Symbol `TRAILER(0)`, R141. -/
  | trailer0
  /-- Symbol `TRAILER(1)`, R141. -/
  | trailer1
  /-- Symbol `GUARD`, R149. -/
  | guard
  /-- Symbol `RECV_WINDOW`, R152. -/
  | recvWindow
  /-- Whole frame of a byte with bit 7 = 1 and parity 0, R150; `rest` is bits 6..0. -/
  | frameB71P0 (rest : BitVec 7)
  /-- Whole frame of a byte with bit 7 = 1 and parity 1, R150; `rest` is bits 6..0. -/
  | frameB71P1 (rest : BitVec 7)
  /-- Whole frame of a byte with bit 7 = 0 and parity 0, R150; `rest` is bits 6..0. -/
  | frameB70P0 (rest : BitVec 7)
  /-- Whole frame of a byte with bit 7 = 0 and parity 1, R150; `rest` is bits 6..0. -/
  | frameB70P1 (rest : BitVec 7)
  deriving DecidableEq, Repr

/-- The level of one tick of a wire symbol's encoding: driven LOW (`0`), driven HIGH (`1`) or released (`z`), as in
the `encoding` strings of `opcode_table.json` (R88, R96). -/
inductive WireLevel where
  | low
  | high
  | released
  deriving DecidableEq, Repr

/-- What selects a wire symbol besides its levels: "who is driving and in which state" (R80). The docstrings name the
states of R90. -/
inductive WireSlot where
  /-- Master: `MPING_START`/`MPING_END`, `SEND_END_MPING`, `SEND_CFM_MPING_START`/`_END`. -/
  | ping
  /-- Slave: `SPING_START`/`SPING_END`, `RECV_CFM_SPING_START`/`_END`. -/
  | slavePing
  /-- Master: `REQUEST_CTRL`. -/
  | leadin
  /-- Master: `START_TRANSFER`. -/
  | startMark
  /-- Master: `SEND_DATA`. -/
  | dataBit
  /-- Master: `END_TRANSFER`, first pulse. -/
  | paritySlot
  /-- Master: `END_TRANSFER`, the pulses between the parity slot and the guard. -/
  | trailer
  /-- Master: `END_TRANSFER`, last pulse. -/
  | guard
  /-- Nobody the block listens to: `WAIT_DATA`, `RECV_DATA_START`. -/
  | recvWindow
  /-- Master: `REQUEST_CTRL` to `END_TRANSFER`. -/
  | frame
  deriving DecidableEq, Repr

/-- A wire symbol as it stands on the wire: its slot and one level per tick (R88, R89). -/
structure WireWord where
  slot : WireSlot
  levels : List WireLevel
  deriving DecidableEq, Repr

/-- A word of one of the three formats of R80: a 16-bit command word, a 5-bit state code, a wire symbol. -/
inductive Code where
  | cmd (w : BitVec 16)
  | state (c : BitVec 5)
  | wire (w : WireWord)
  deriving DecidableEq, Repr

end Sys2Proof
end

