-- ==== Sys2Proof/WellFormed.lean ====
section
/-! DEFINITION. Well-formed instructions (`30_encoding.md` R89, R92, R96). -/

namespace Sys2Proof

/-- The byte of a frame from its bit 7 and its bits 6..0. -/
def frameByte (b7 : Bool) (rest : BitVec 7) : Byte := BitVec.ofBool b7 ++ rest

/-- An instruction is well formed iff a frame's parity slot is the parity of its byte (R89: `p = popcount(b) mod 2`). Every
other operand takes every value its field holds: `LOADB` any byte (R204), `RD` any of 16 numbers, 5 to 15 being "a
legal encoding of a read of a register that does not exist" (R92). -/
def Instr.wf : Instr → Bool
  | .nop | .swon | .swoff | .loadb _ | .start | .detach | .forceok | .rd _ => true
  | .idle | .mpingStart | .mpingEnd | .waitSping | .spingStart | .spingEnd | .requestCtrl | .startTransfer => true
  | .sendData | .endTransfer | .sendEndMping | .waitData | .recvDataStart | .recvDataEnd => true
  | .sendCfmMpingStart | .sendCfmMpingEnd | .waitCfmSping | .recvCfmSpingStart | .recvCfmSpingEnd => true
  | .finish | .ok | .error => true
  | .mping | .sping | .leadin | .startMark1 | .startMark0 | .bit _ | .paritySlot _ => true
  | .trailer0 | .trailer1 | .guard | .recvWindow => true
  | .frameB71P0 rest => Machine.parity (frameByte true rest) == false
  | .frameB71P1 rest => Machine.parity (frameByte true rest) == true
  | .frameB70P0 rest => Machine.parity (frameByte false rest) == false
  | .frameB70P1 rest => Machine.parity (frameByte false rest) == true

end Sys2Proof
end

