-- ==== Sys2Proof/Decode.lean ====
section
/-! DEFINITION. Decoding and encoding of the three formats of `30_encoding.md`: command words (R81, R82, R92), state codes
(R84), wire symbols (R88, R89). -/

namespace Sys2Proof

/-! ## Command words -/

/-- The field `OP`, bits [15:12] (R81). -/
def cmdOp (w : BitVec 16) : BitVec 4 := w.extractLsb' 12 4

/-- The field `RSV`, bits [11:8] (R81). -/
def cmdRsv (w : BitVec 16) : BitVec 4 := w.extractLsb' 8 4

/-- The field `IMM`, bits [7:0] (R81). -/
def cmdImm (w : BitVec 16) : BitVec 8 := w.extractLsb' 0 8

/-- A command without operand: `IMM` must be 0 (R81, R92). -/
def decodeNoOperand (imm : BitVec 8) (i : Instr) : Option Instr := if imm = 0 then some i else none

/-- The register number of `RD`: `IMM[3:0]`, with `IMM[7:4] = 0` (R81, R86, R92). -/
def decodeRd (imm : BitVec 8) : Option Instr :=
  if imm.extractLsb' 4 4 = 0 then some (.rd (imm.extractLsb' 0 4)) else none

/-- The command map of R82 on the fields `OP` and `IMM`. -/
def decodeCmdFields (op : BitVec 4) (imm : BitVec 8) : Option Instr :=
  match op.toNat with
  | 0 => decodeNoOperand imm .nop
  | 1 => decodeNoOperand imm .swon
  | 2 => decodeNoOperand imm .swoff
  | 3 => some (.loadb imm)
  | 4 => decodeNoOperand imm .start
  | 5 => decodeNoOperand imm .detach
  | 6 => decodeNoOperand imm .forceok
  | 7 => decodeRd imm
  | _ => none

/-- The command a word stands for, `none` iff the word is illegal (R92). -/
def decodeCmd (w : BitVec 16) : Option Instr :=
  if cmdRsv w = 0 then decodeCmdFields (cmdOp w) (cmdImm w) else none

/-! ## State codes -/

/-- The handler a state code names, `none` for the codes 22 to 31 (R84, R92). -/
def decodeState (c : BitVec 5) : Option Instr :=
  match c.toNat with
  | 0 => some .idle
  | 1 => some .mpingStart
  | 2 => some .mpingEnd
  | 3 => some .waitSping
  | 4 => some .spingStart
  | 5 => some .spingEnd
  | 6 => some .requestCtrl
  | 7 => some .startTransfer
  | 8 => some .sendData
  | 9 => some .endTransfer
  | 10 => some .sendEndMping
  | 11 => some .waitData
  | 12 => some .recvDataStart
  | 13 => some .recvDataEnd
  | 14 => some .sendCfmMpingStart
  | 15 => some .sendCfmMpingEnd
  | 16 => some .waitCfmSping
  | 17 => some .recvCfmSpingStart
  | 18 => some .recvCfmSpingEnd
  | 19 => some .finish
  | 20 => some .ok
  | 21 => some .error
  | _ => none

/-! ## Wire symbols -/

/-- A driven level in an encoding. -/
def WireLevel.ofLevel : Level → WireLevel
  | .low => .low
  | .high => .high

/-- The level of a driven tick of an encoding; a released tick has none. -/
def WireLevel.toLevel : WireLevel → Option Level
  | .low => some .low
  | .high => some .high
  | .released => none

/-- The levels of an encoding all of whose ticks are driven. -/
def drivenLevels : List WireLevel → Option (List Level)
  | [] => some []
  | l :: ls =>
    match l.toLevel, drivenLevels ls with
    | some a, some as => some (a :: as)
    | _, _ => none

/-- The encoding of a pulse sequence: one level per tick (R88). -/
def wireOfPulses (p : List Pulse) : List WireLevel := (Machine.levels p).map .ofLevel

/-- The encoding of the frame of a byte with the shapes of R89. -/
def wireFrame (b : Byte) : List WireLevel := wireOfPulses (Machine.frame Machine.cfgRef b)

/-- The frame instruction of a byte: its bit 7 and its parity name the row, its bits 6..0 are the operand (R96). -/
def frameInstr (b : Byte) : Instr :=
  match b.getLsbD 7, Machine.parity b with
  | true, false => .frameB71P0 (b.extractLsb' 0 7)
  | true, true => .frameB71P1 (b.extractLsb' 0 7)
  | false, false => .frameB70P0 (b.extractLsb' 0 7)
  | false, true => .frameB70P1 (b.extractLsb' 0 7)

/-- A whole frame: `decode_frame` (R151) reads its byte, and the levels must be that byte's frame from its first tick to
its last. -/
def decodeFrameWord (lv : List WireLevel) : Option Instr :=
  match drivenLevels lv with
  | none => none
  | some v =>
    match Machine.decodeFrame v with
    | none => none
    | some r => if lv = wireFrame r.byte then some (frameInstr r.byte) else none

/-- A slot of four equal levels (R148, R149). -/
def decodeSlot (lv : List WireLevel) (f : Bool → Instr) : Option Instr :=
  if lv = wireOfPulses (Machine.bitPulses true) then some (f true)
  else if lv = wireOfPulses (Machine.bitPulses false) then some (f false)
  else none

/-- The symbol on the wire, from its slot and its levels (R80, R88, R89); the shapes are those of the table (R141, R147). -/
def decodeWire (w : WireWord) : Option Instr :=
  match w.slot with
  | .ping => if w.levels = wireOfPulses Machine.pingPulses then some .mping else none
  | .slavePing => if w.levels = List.replicate 4 .high then some .sping else none
  | .leadin => if w.levels = wireOfPulses Machine.leadinPulses then some .leadin else none
  | .startMark =>
    if w.levels = wireOfPulses (Machine.defaultStartMark true) then some .startMark1
    else if w.levels = wireOfPulses (Machine.defaultStartMark false) then some .startMark0
    else none
  | .dataBit => decodeSlot w.levels .bit
  | .paritySlot => decodeSlot w.levels .paritySlot
  | .trailer =>
    if w.levels = wireOfPulses (Machine.defaultTrailer true) then some .trailer1
    else if w.levels = wireOfPulses (Machine.defaultTrailer false) then some .trailer0
    else none
  | .guard => if w.levels = wireOfPulses Machine.guardPulses then some .guard else none
  | .recvWindow =>
    if w.levels = List.replicate (Machine.tWaitData + Machine.recvDataTicks) .released then some .recvWindow else none
  | .frame => decodeFrameWord w.levels

/-- Decoding of a word of any format. -/
def decode : Code → Option Instr
  | .cmd w => decodeCmd w
  | .state c => decodeState c
  | .wire w => decodeWire w

/-! ## Encoding -/

/-- The word of an instruction (R82, R84, R88, R89). -/
def encode : Instr → Code
  | .nop => .cmd Machine.wordNop
  | .swon => .cmd Machine.wordSwon
  | .swoff => .cmd Machine.wordSwoff
  | .loadb imm => .cmd (Machine.wordLoadb imm)
  | .start => .cmd Machine.wordStart
  | .detach => .cmd Machine.wordDetach
  | .forceok => .cmd Machine.wordForceok
  | .rd n => .cmd (Machine.wordRd n)
  | .idle => .state Machine.cIdle
  | .mpingStart => .state Machine.cMpingStart
  | .mpingEnd => .state Machine.cMpingEnd
  | .waitSping => .state Machine.cWaitSping
  | .spingStart => .state Machine.cSpingStart
  | .spingEnd => .state Machine.cSpingEnd
  | .requestCtrl => .state Machine.cRequestCtrl
  | .startTransfer => .state Machine.cStartTransfer
  | .sendData => .state Machine.cSendData
  | .endTransfer => .state Machine.cEndTransfer
  | .sendEndMping => .state Machine.cSendEndMping
  | .waitData => .state Machine.cWaitData
  | .recvDataStart => .state Machine.cRecvDataStart
  | .recvDataEnd => .state Machine.cRecvDataEnd
  | .sendCfmMpingStart => .state Machine.cSendCfmMpingStart
  | .sendCfmMpingEnd => .state Machine.cSendCfmMpingEnd
  | .waitCfmSping => .state Machine.cWaitCfmSping
  | .recvCfmSpingStart => .state Machine.cRecvCfmSpingStart
  | .recvCfmSpingEnd => .state Machine.cRecvCfmSpingEnd
  | .finish => .state Machine.cFinish
  | .ok => .state Machine.cOk
  | .error => .state Machine.cError
  | .mping => .wire ⟨.ping, wireOfPulses Machine.pingPulses⟩
  | .sping => .wire ⟨.slavePing, List.replicate 4 .high⟩
  | .leadin => .wire ⟨.leadin, wireOfPulses Machine.leadinPulses⟩
  | .startMark1 => .wire ⟨.startMark, wireOfPulses (Machine.defaultStartMark true)⟩
  | .startMark0 => .wire ⟨.startMark, wireOfPulses (Machine.defaultStartMark false)⟩
  | .bit b => .wire ⟨.dataBit, wireOfPulses (Machine.bitPulses b)⟩
  | .paritySlot p => .wire ⟨.paritySlot, wireOfPulses (Machine.paritySlotPulses p)⟩
  | .trailer0 => .wire ⟨.trailer, wireOfPulses (Machine.defaultTrailer false)⟩
  | .trailer1 => .wire ⟨.trailer, wireOfPulses (Machine.defaultTrailer true)⟩
  | .guard => .wire ⟨.guard, wireOfPulses Machine.guardPulses⟩
  | .recvWindow => .wire ⟨.recvWindow, List.replicate (Machine.tWaitData + Machine.recvDataTicks) .released⟩
  | .frameB71P0 rest => .wire ⟨.frame, wireOfPulses (Machine.frameWith Machine.cfgRef (frameByte true rest) false)⟩
  | .frameB71P1 rest => .wire ⟨.frame, wireOfPulses (Machine.frameWith Machine.cfgRef (frameByte true rest) true)⟩
  | .frameB70P0 rest => .wire ⟨.frame, wireOfPulses (Machine.frameWith Machine.cfgRef (frameByte false rest) false)⟩
  | .frameB70P1 rest => .wire ⟨.frame, wireOfPulses (Machine.frameWith Machine.cfgRef (frameByte false rest) true)⟩

/-! ## The words of `opcode_table.json` -/

/-- The `n` lowest bits of a number as levels, bit 0 the first tick. -/
def levelsOfBits (w : Nat) (n : Nat) : List Level := (List.range n).map fun k => Level.ofBool (w.testBit k)

/-- A wire symbol given as a number, bit `k` the level of tick `k` (log 23): more than 64 bits are a master ping, fewer are a
whole frame, cut to the length its own start mark and parity slot give (R89). -/
def wireWordOfBits (nbits w : Nat) : WireWord :=
  if 64 < nbits then ⟨.ping, ((levelsOfBits w (max 65 (w.log2 + 1))).map .ofLevel)⟩
  else
    match Machine.decodeFrame (levelsOfBits w nbits) with
    | none => ⟨.frame, (levelsOfBits w nbits).map .ofLevel⟩
    | some r => ⟨.frame, (levelsOfBits w (max (wireFrame r.byte).length (w.log2 + 1))).map .ofLevel⟩

/-- A word of the table as a word of its format: up to 8 bits a state code, up to 16 a command word, else a wire symbol;
`none` if a bit above the format's width is set. -/
def tableCode (nbits w : Nat) : Option Code :=
  if nbits ≤ 8 then (if w < 32 then some (.state (BitVec.ofNat 5 w)) else none)
  else if nbits ≤ 16 then (if w < 65536 then some (.cmd (BitVec.ofNat 16 w)) else none)
  else some (.wire (wireWordOfBits nbits w))

/-- The instruction the decoder reads from a word numbered as `opcode_table.json` numbers it. -/
def decodeTableWord (nbits w : Nat) : Option Instr :=
  match tableCode nbits w with
  | some c => decode c
  | none => none

end Sys2Proof
end

