-- ==== Sys2Proof/Machine/State.lean ====
section
/-! DEFINITION. The state of the system (`10_state.md`), its reset (R45, R280), and the reasons a step can stop. -/

namespace Sys2Proof.Machine

/-- The registers of the block (R21): the engine state `E` of R20. -/
structure Engine where
  /-- `STATE` (R22): the program counter; codes of R84. -/
  state : BitVec 5
  /-- `PHASE_COUNTER` (R23). -/
  phaseCounter : BitVec 8
  /-- `TIMER` (R24): ticks to the next handler. -/
  timer : BitVec 32
  /-- `PENDING_BYTE` (R25). -/
  pendingByte : Byte
  /-- `PARITY` (R26). -/
  parity : Bool
  /-- `ROUND_COUNT` (R27). -/
  roundCount : BitVec 8
  /-- `LAST_ERROR` (R28). -/
  lastError : BitVec 3
  /-- `ERR_PHASE` (R29): set for the confirm SPING. -/
  errPhase : Bool
  /-- `DIR` (R30). -/
  dir : Dir
  /-- `DOUT` (R30). -/
  dout : Level
  /-- `SWITCH` (R32). -/
  switch : Bool
  /-- `DONE` (R34). -/
  done : Bool
  /-- `ERR` (R35). -/
  err : Bool
  deriving DecidableEq, Repr

/-- The engine after reset (R45); the state after `DETACH` is the same (R206). -/
def Engine.reset : Engine where
  state := cIdle
  phaseCounter := 0
  timer := 0
  pendingByte := 0x00
  parity := false
  roundCount := 0
  lastError := 0
  errPhase := false
  dir := .output
  dout := .low
  switch := false
  done := false
  err := false

/-- A voltage that can be requested (R42). -/
inductive Target where
  | v5
  | v9
  deriving DecidableEq, Repr

/-- What `report_result` says (R221, conflict C14). -/
inductive AfcResult where
  | afc5v
  | afc9v
  | afcFail
  deriving DecidableEq, Repr

/-- Where the host stands in `request_voltage` (R222). A `wait` is the ticks still to go before the named action; the reference
host of R232 acts in the tick in which it is 0. -/
inductive HostPhase where
  /-- No call in progress. -/
  | idle
  /-- Step 2: `SWON` is the next command. -/
  | arm
  /-- Steps 2, 3: `LOADB` is the next command, after the switch has settled. -/
  | load (wait : Nat)
  /-- Steps 4, 5: `START` is the next command. -/
  | launch (wait : Nat)
  /-- Step 4: waiting until `EVENT != none`. -/
  | waitEvent
  /-- Step 5, retries spent (R226): `FORCEOK` is the next command. -/
  | giveUp
  /-- Step 6: confirmation poll number `k`. -/
  | poll (k : Nat) (wait : Nat)
  /-- Step 7 after a cable-absent abort (R225): report and `DETACH`. -/
  | report (outcome : AfcResult)
  deriving DecidableEq, Repr

/-- The host state `H` (R42): the Session/Retry Controller. -/
structure Controller where
  /-- `requested_voltage`. -/
  requestedVoltage : Target
  /-- `RETRY_COUNT`. -/
  retryCount : Nat
  /-- `ACHIEVED`. -/
  achieved : Option Target
  /-- `RESULT`. -/
  result : Option AfcResult
  /-- The position in `request_voltage`, with the local poll counter. -/
  phase : HostPhase
  /-- The calls that wait for the one in progress (R231; log 18). -/
  waiting : List Target
  deriving DecidableEq, Repr

/-- The host after reset (R42, R282). `requested_voltage` is unspecified there: DESIGN CHOICE `V5` (log 10). -/
def Controller.reset : Controller where
  requestedVoltage := .v5
  retryCount := 0
  achieved := none
  result := none
  phase := .idle
  waiting := []

/-- What the host side presents in one tick (R13, R94, R95, R220): at most one thing at the command port. -/
inductive HostItem where
  /-- Nothing; the controller may use the port. -/
  | quiet
  /-- A command word of a test bench (R94). -/
  | word (w : BitVec 16)
  /-- The directive `WAITEV` (R95): `NOP` in this tick and the next ones, to the tick of an event. -/
  | waitev
  /-- Calls of `request_voltage` (R222). -/
  | call (ts : List Target)
  /-- A call of `detach` (R229). -/
  | detach
  deriving DecidableEq, Repr

/-- The inputs of the coming ticks (log 5): the first element of a list is the input of the next tick. After its end `LineIn`
and VBUS are free, the host side is quiet and `rst` is de-asserted. -/
structure Env where
  /-- `LineIn(t)`, the adapter (R37). -/
  line : List Level
  /-- `ReadVbus()`, the VBUS source (R221). -/
  vbus : List Int
  /-- The host side. -/
  script : List HostItem
  /-- `rst` (R280). -/
  rst : List Bool
  deriving DecidableEq, Repr

/-- No inputs listed. -/
def Env.empty : Env where
  line := []
  vbus := []
  script := []
  rst := []

/-- `EVENT` (R36, R85). -/
inductive Event where
  | none
  | done
  | error
  deriving DecidableEq, Repr

/-- The two bits of `EVENT` (R85). -/
def Event.code : Event → BitVec 2
  | .none => 0
  | .done => 1
  | .error => 2

/-- The response codes (R83). -/
inductive RespCode where
  | ack
  | rejBusy
  | rejState
  | rejIllegal
  deriving DecidableEq, Repr

/-- The two bits of a response code (R83). -/
def RespCode.code : RespCode → BitVec 2
  | .ack => 0
  | .rejBusy => 1
  | .rejState => 2
  | .rejIllegal => 3

/-- The response to a command: code and data word (R83, R200). -/
structure Response where
  code : RespCode
  data : BitVec 32
  deriving DecidableEq, Repr

/-- The outputs of a tick that are no registers (log 7). -/
structure Out where
  /-- `EVENT(t)` (R36). -/
  event : Event
  /-- The response on the command port, `none` in a tick with no command (R200). -/
  resp : Option Response
  /-- `report_result` (R221). -/
  report : Option AfcResult
  deriving DecidableEq, Repr

/-- No event, no response, no report. -/
def Out.none : Out where
  event := .none
  resp := Option.none
  report := Option.none

/-- The observation of one tick (R14): `DIR(t)`, `DOUT(t)`, `SWITCH(t)`, `EVENT(t)`, the response, the host's report, and the wire
level `Wire(t)`. `PINSTATE(t)` is a function of `DIR(t)` (R31). -/
structure TickOut where
  dir : Dir
  dout : Level
  switch : Bool
  out : Out
  wire : Level
  deriving DecidableEq, Repr

/-- The state of the system. -/
structure State where
  /-- The configuration (R7), constant (R293; log 2). -/
  cfg : Cfg
  /-- The engine state (R21). -/
  eng : Engine
  /-- The host state (R42). -/
  host : Controller
  /-- The inputs to come (log 5). -/
  env : Env
  /-- The wire symbol a test bench asks the transceiver to play (log 15). -/
  bench : Option WireWord
  /-- The number of ticks so far (R68; log 7). -/
  tick : Nat
  /-- The outputs of the latest tick (log 7). -/
  out : Out
  /-- The output trace, the latest tick first (R14; log 7). -/
  trace : List TickOut
  deriving DecidableEq, Repr

/-- The system after reset with a given configuration (R45, R280, R282). -/
def State.resetWith (c : Cfg) : State where
  cfg := c
  eng := Engine.reset
  host := Controller.reset
  env := Env.empty
  bench := none
  tick := 0
  out := Out.none
  trace := []

/-- The machine right after reset, in the reference configuration (log 2). -/
def State.reset : State := State.resetWith cfgRef

/-- The reasons the model stops with a fault. -/
inductive Fault where
  /-- Raised by the handlers of `START_TRANSFER`, `SEND_DATA` and `END_TRANSFER` if `PHASE_COUNTER` is outside the range R23
  gives it there, so that the pulse or bit the pseudocode indexes does not exist (log 12). Safe: no run reaches it. -/
  | pulseIndexOutOfRange
  deriving DecidableEq, Repr

/-- The reasons the model refuses. -/
inductive Refusal where
  /-- Raised by `exec` for an instruction that has no meaning yet. Safe. No arm of this model raises it. -/
  | notModelled (mnemonic : String)
  /-- Raised by the step in an ill-formed configuration: "a model refuses any other" (R8, U11). Safe. -/
  | illFormedConfig
  /-- Raised by the step for a `STATE` code 22 to 31, or a `LAST_ERROR` of 4 to 7, which no rule writes: "must refuse
  (not guess)" (R92, U7, U10). Safe. -/
  | unreachableCode
  /-- Raised by a handler's `LineWrite` while `DIR = INPUT`: "must not give `LineWrite` a meaning when `DIR = INPUT`" (R128,
  U12). Safe: no run reaches it. -/
  | lineWriteWhileInput
  /-- Raised by a handler's `LineRead` while `DIR = OUTPUT` (R129, U12). Safe: no run reaches it. -/
  | lineReadWhileOutput
  /-- Raised by the step for a bench pattern that is no wire symbol (log 15). Safe: the bench is the model's own. -/
  | notASymbol
  deriving DecidableEq, Repr

/-- The outcome of a step of this machine. -/
abbrev Outcome := Host.Outcome State Fault Refusal

end Sys2Proof.Machine
end

