-- ==== Sys2Proof/Machine/Ops.lean ====
section
/-! DEFINITION. The named operations over the registers: pad primitives (R126 to R129), `Next` and `Stay` (R113), taking a SPING
error (R255) and leaving `ERROR` (R260), responses (R83, R201), status registers (R44, R62), and playing a pulse sequence on the wire. -/

namespace Sys2Proof.Machine

/-! ## Flags of the engine -/

/-- `BUSY` (R40). -/
def Engine.busy (e : Engine) : Bool := busyCode e.state

/-- `PINSTATE` (R31, R130). -/
def pinState : Dir → PinState
  | .output => .active
  | .input => .sleep

/-! ## Pad primitives -/

/-- `LineOutput(l)` (R126): always legal. -/
def Engine.lineOutput (l : Level) (e : Engine) : Engine := { e with dir := .output, dout := l }

/-- `LineInput()` (R127): leaves `DOUT`; always legal. -/
def Engine.lineInput (e : Engine) : Engine := { e with dir := .input }

/-- `LineWrite(l)` (R128) and then `k` on the registers; no meaning unless `DIR = OUTPUT`. -/
def lineWrite (l : Level) (k : Engine → Engine) (s : State) : Outcome :=
  match s.eng.dir with
  | .output => .next { s with eng := k { s.eng with dout := l } }
  | .input => .refused .lineWriteWhileInput

/-! ## Sequencing -/

/-- `PHASE_COUNTER <- v`. -/
def Engine.setPhase (v : BitVec 8) (e : Engine) : Engine := { e with phaseCounter := v }

/-- `Next(S, d)` (R113). -/
def Engine.goTo (c : BitVec 5) (d : Nat) (e : Engine) : Engine := { e with state := c, timer := BitVec.ofNat 32 d }

/-- `Stay(d)` (R113). -/
def Engine.stay (d : Nat) (e : Engine) : Engine := { e with timer := BitVec.ofNat 32 d }

/-- A register update as the end of a handler. -/
def State.mapEng (f : Engine → Engine) (s : State) : State := { s with eng := f s.eng }

/-- `EVENT(t) = ev` (R36). -/
def State.signal (ev : Event) (s : State) : State := { s with out := { s.out with event := ev } }

/-! ## Errors -/

/-- `SPING_ERR_1`, timeout (R251). -/
abbrev spingErr1 : BitVec 3 := 1
/-- `SPING_ERR_2`, too short (R252). -/
abbrev spingErr2 : BitVec 3 := 2
/-- `SPING_ERR_3`, too long (R253). -/
abbrev spingErr3 : BitVec 3 := 3

/-- The registers after the error entry (R255): safe low output, `ERROR`, the code and the phase, `ERR`, no further
scheduling. Everything else is kept. -/
def Engine.enterError (code : BitVec 3) (phase : Bool) (e : Engine) : Engine :=
  { e.lineOutput .low with state := cError, lastError := code, errPhase := phase, err := errOf code, timer := 0 }

/-- `raise SpingError(code, phase)`: the error entry (R255), with `EVENT = error`. -/
def raiseSpingError (code : BitVec 3) (phase : Bool) (s : State) : State :=
  (s.mapEng (·.enterError code phase)).signal .error

/-- Leaving a terminal state by `START` (R205, R260): the first handler is due, the counters, the error record and the flags
are cleared. -/
def Engine.launch (e : Engine) : Engine :=
  { e with state := cMpingStart, timer := 0, phaseCounter := 0, roundCount := 0, lastError := 0, errPhase := false,
           err := false, done := false }

/-- Leaving `ERROR` by `FORCEOK` (R207, R260): the error record stays. -/
def Engine.forceOk (e : Engine) : Engine := { e with state := cOk }

/-- The registers after `DETACH` (R206), written as its pseudocode. -/
def Engine.detach (e : Engine) : Engine :=
  { e.lineOutput .low with
    state := cIdle, timer := 0, phaseCounter := 0, roundCount := 0, lastError := 0, errPhase := false, err := false,
    done := false, pendingByte := 0x00, parity := false, switch := false }

/-! ## Responses -/

/-- The response of a command (R83, R200). -/
def State.respond (c : RespCode) (d : BitVec 32) (s : State) : State :=
  { s with out := { s.out with resp := some ⟨c, d⟩ } }

/-- An accepted command: `ACK`, data 0, and its register update (R83, R201). -/
def accept (f : Engine → Engine) (s : State) : Outcome := .next ((s.mapEng f).respond .ack 0)

/-- `Reject(r)`: response `r`, data 0, and nothing else (R201). -/
def reject (r : RespCode) (s : State) : Outcome := .next (s.respond r 0)

/-! ## Status registers -/

/-- Status register 0, `STATUS` (R44): bits 12 to 0, the first the highest; bits 31 to 13 read 0. -/
def statusWord (e : Engine) : BitVec 32 :=
  (BitVec.ofBool e.parity ++ BitVec.ofBool e.switch ++ BitVec.ofBool (pinState e.dir).toBool
    ++ BitVec.ofBool e.dout.toBool ++ BitVec.ofBool e.dir.toBool ++ BitVec.ofBool e.err ++ BitVec.ofBool e.done
    ++ BitVec.ofBool e.busy ++ e.state).setWidth 32

/-- Status register 1, `ERROR` (R44). -/
def errorWord (e : Engine) : BitVec 32 := (BitVec.ofBool e.errPhase ++ e.lastError).setWidth 32

/-- Status register 2, `COUNT` (R44). -/
def countWord (e : Engine) : BitVec 32 := (e.phaseCounter ++ e.roundCount).setWidth 32

/-- Status register 3, `DATA` (R44). -/
def dataWord (e : Engine) : BitVec 32 := (BitVec.ofBool e.parity ++ e.pendingByte).setWidth 32

/-- `RegRead(n)` (R62, R67): the status register, `none` for the numbers 5 to 15. -/
def regRead (e : Engine) (n : BitVec 4) : Option (BitVec 32) :=
  match n.toNat with
  | 0 => some (statusWord e)
  | 1 => some (errorWord e)
  | 2 => some (countWord e)
  | 3 => some (dataWord e)
  | 4 => some e.timer
  | _ => none

/-! ## Time on the wire -/

/-- `LineIn(t)` at the coming tick (R37): the stream's head, free where it has ended (log 5). -/
def State.lineIn (s : State) : Level :=
  match s.env.line with
  | [] => Config.lineIn s.tick
  | l :: _ => l

/-- `Wire(t)` (R14, R125): the driven level, or the line's if the pad is released. -/
def State.wire (s : State) : Level :=
  match s.eng.dir with
  | .output => s.eng.dout
  | .input => s.lineIn

/-- The observation of the tick that ends in a state (R14). -/
def State.observe (s : State) : TickOut := ⟨s.eng.dir, s.eng.dout, s.eng.switch, s.out, s.wire⟩

/-- One tick passes on the wire: its outputs join the trace and the adapter's level of it is gone (R14, R68). -/
def State.wireTick (s : State) : State :=
  { s with trace := s.observe :: s.trace, tick := s.tick + 1, env := { s.env with line := s.env.line.drop 1 } }

/-- `n` ticks pass on the wire. -/
def holdTicks : Nat → State → State
  | 0, s => s
  | n + 1, s => holdTicks n s.wireTick

/-- A pulse sequence on the wire, driven by the block: each level for its ticks (R10, R114; log 13). -/
def playPulses : List Pulse → State → State
  | [], s => s
  | p :: ps, s => playPulses ps (holdTicks p.ticks (s.mapEng (·.lineOutput p.level)))

/-- The released line for `n` ticks: not driven, not sampled (R152; log 13). -/
def releaseFor (n : Nat) (s : State) : State := holdTicks n (s.mapEng (·.lineInput))

/-! ## Outcomes -/

/-- The next phase of a tick runs on the state the one before it left; a stop stays a stop. -/
def andThen (o : Outcome) (k : State → Outcome) : Outcome :=
  match o with
  | .next s => k s
  | .fault r => .fault r
  | .refused r => .refused r

end Sys2Proof.Machine
end

