-- ==== Sys2Proof/Machine/Operands.lean ====
section
/-! DEFINITION. The operands of the instructions (R86): the sampled level, the pulse or the bit that `PHASE_COUNTER` selects, and the
shared reception handlers of the two SPINGs (R171, R172, R184, R185). -/

namespace Sys2Proof.Machine

/-- `LineRead()` (R129) and then `k` on the sampled level; no meaning unless `DIR = INPUT`. -/
def lineRead (k : Level → Outcome) (s : State) : Outcome :=
  match s.eng.dir with
  | .input => k s.lineIn
  | .output => .refused .lineReadWhileOutput

/-- The pulse `PHASE_COUNTER` selects in a pulse sequence (R174, R176), and then `k` on it. -/
def withPulse (seq : List Pulse) (k : Pulse → Outcome) (s : State) : Outcome :=
  match seq[s.eng.phaseCounter.toNat]? with
  | some p => k p
  | none => .fault .pulseIndexOutOfRange

/-- `PENDING_BYTE[7 - PHASE_COUNTER]` (R175), and then `k` on it. -/
def withDataBit (k : Bool → Outcome) (s : State) : Outcome :=
  if s.eng.phaseCounter.toNat ≤ 7 then k (s.eng.pendingByte.getLsbD (7 - s.eng.phaseCounter.toNat))
  else .fault .pulseIndexOutOfRange

/-- The wait window of a SPING (R171, R184): `measure` is the state that measures it, `phase` is 0 for the first SPING of a round
and 1 for the confirm SPING. -/
def spingWait (measure : BitVec 5) (phase : Bool) (s : State) : Outcome :=
  lineRead
    (fun
      | .high => .next (s.mapEng fun e => (e.setPhase 1).goTo measure tPoll)
      | .low =>
        let t := s.mapEng fun e => e.setPhase (e.phaseCounter + 1)
        if t.eng.phaseCounter.toNat ≥ s.cfg.waitSpingCount then .next (raiseSpingError spingErr1 phase t)
        else .next (t.mapEng (·.stay tPoll)))
    s

/-- The measurement of a SPING (R172, R185): `valid` is the state that follows a valid one. -/
def spingMeasure (valid : BitVec 5) (phase : Bool) (s : State) : Outcome :=
  lineRead
    (fun
      | .high =>
        let t := s.mapEng fun e => e.setPhase (e.phaseCounter + 1)
        if t.eng.phaseCounter.toNat > s.cfg.spingMaxUi then .next (raiseSpingError spingErr3 phase t)
        else .next (t.mapEng (·.stay tPoll))
      | .low =>
        if s.eng.phaseCounter.toNat < s.cfg.spingMinUi then .next (raiseSpingError spingErr2 phase s)
        else .next (s.mapEng (·.goTo valid tTurn)))
    s

/-- The VBUS reading of the coming tick (R221): the stream's head, free where it has ended (log 5, log 19). -/
def State.vbus (s : State) : Int :=
  match s.env.vbus with
  | [] => Config.vbus s.tick
  | v :: _ => v

/-- What the host side presents in the coming tick; nothing where its stream has ended. -/
def State.hostItem (s : State) : HostItem :=
  match s.env.script with
  | [] => .quiet
  | h :: _ => h

/-- `rst` in the coming tick (R280); de-asserted where its stream has ended. -/
def State.rstNow (s : State) : Bool :=
  match s.env.rst with
  | [] => false
  | r :: _ => r

end Sys2Proof.Machine
end

