-- ==== Sys2Proof/Machine/Fetch.lean ====
section
/-! DEFINITION. Placing a word where the next step takes its instruction (log 6): a command word at the command port, a state code in
`STATE` with the handler due, a wire symbol at the bench. -/

namespace Sys2Proof.Machine

/-- `rst` is not asserted in the coming tick. -/
def Env.noRst (e : Env) : Env :=
  match e.rst with
  | true :: r => { e with rst := false :: r }
  | _ => e

/-- The word at the command port in the coming tick. -/
def Env.present (w : BitVec 16) (e : Env) : Env := { e.noRst with script := .word w :: e.script.drop 1 }

/-- The direction a handler of 1 to 19 finds, and the one the resting states have (R166, R41 I-c). -/
def dirAt (c : BitVec 5) : Dir :=
  match c.toNat with
  | 4 | 5 | 6 | 12 | 13 | 17 | 18 | 19 => .input
  | _ => .output

/-- The line has a level for the coming tick: `HIGH` if the stream has ended (log 6). -/
def Env.withLine (e : Env) : Env :=
  match e.line with
  | [] => { e with line := [.high] }
  | _ => e

/-- The command port. -/
def placeCmd (w : BitVec 16) (s : State) : State := { s with bench := none, env := s.env.present w }

/-- The sequencer: the state is selected, its handler is due, the pad has the direction it finds; the port has a `NOP`. -/
def placeState (c : BitVec 5) (s : State) : State :=
  { s with bench := none, env := (s.env.present wordNop).withLine,
           eng := { s.eng with state := c, timer := 0, dir := dirAt c } }

/-- The bench: the symbol is next, the line is not claimed. -/
def placeWire (w : WireWord) (s : State) : State :=
  { s with bench := some w, env := s.env.noRst,
           eng := if s.eng.busy then { s.eng with state := cIdle, timer := 0 } else s.eng }

/-- A word of any format. -/
def placeCode (c : Code) (s : State) : State :=
  match c with
  | .cmd w => placeCmd w s
  | .state c => placeState c s
  | .wire w => placeWire w s

/-- A word of the table, numbered as `opcode_table.json` numbers it; a word with bits above its format is placed nowhere. -/
def placeTableWord (nbits w : Nat) (s : State) : State :=
  match tableCode nbits w with
  | some c => placeCode c s
  | none => s

end Sys2Proof.Machine
end

