-- ==== Sys2Proof/Machine/Commands.lean ====
section
/-! DEFINITION. The meanings of the host commands (`44_host_commands.md` R202 to R209), with their acceptance (R201). -/

namespace Sys2Proof.Machine

/-- `NOP` (R202). -/
def execNop (s : State) : Outcome := accept id s

/-- `SWON` (R203): `SWITCH <- 1`. -/
def execSwon (s : State) : Outcome := accept (fun e => { e with switch := true }) s

/-- `SWOFF` (R209): `SWITCH <- 0`. -/
def execSwoff (s : State) : Outcome := accept (fun e => { e with switch := false }) s

/-- `LOADB imm8` (R204): refused while busy; the byte and its parity in one step (R26). -/
def execLoadb (imm : Byte) (s : State) : Outcome :=
  if s.eng.busy then reject .rejBusy s
  else accept (fun e => { e with pendingByte := imm, parity := parity imm }) s

/-- `START` (R205, R71): refused while busy. -/
def execStart (s : State) : Outcome :=
  if s.eng.busy then reject .rejBusy s else accept Engine.launch s

/-- `DETACH` (R206): accepted in every state. -/
def execDetach (s : State) : Outcome := accept Engine.detach s

/-- `FORCEOK` (R207): only in `ERROR`. -/
def execForceok (s : State) : Outcome :=
  if s.eng.state = cError then accept Engine.forceOk s else reject .rejState s

/-- `RD n` (R208): the status register at this tick boundary. -/
def execRd (n : BitVec 4) (s : State) : Outcome :=
  match regRead s.eng n with
  | some d => .next (s.respond .ack d)
  | none => reject .rejIllegal s

end Sys2Proof.Machine
end

