-- ==== Sys2Proof/Machine/Handlers.lean ====
section
/-! DEFINITION. The meanings of the 22 state handlers (`43_handshake_fsm.md` R167 to R188). -/

namespace Sys2Proof.Machine

/-- `IDLE` (R167): no action, no scheduling. -/
def execIdle (s : State) : Outcome := .next s

/-- `MPING_START` (R168). -/
def execMpingStart (s : State) : Outcome :=
  .next (s.mapEng fun e => (e.lineOutput .high).goTo cMpingEnd mpingTicks)

/-- `MPING_END` (R169). -/
def execMpingEnd (s : State) : Outcome := lineWrite .low (·.goTo cWaitSping tRelease) s

/-- `WAIT_SPING` (R170). -/
def execWaitSping (s : State) : Outcome :=
  .next (s.mapEng fun e => (e.lineInput.setPhase 0).goTo cSpingStart tFirstPoll)

/-- `SPING_START` (R171). -/
def execSpingStart (s : State) : Outcome := spingWait cSpingEnd false s

/-- `SPING_END` (R172). -/
def execSpingEnd (s : State) : Outcome := spingMeasure cRequestCtrl false s

/-- `REQUEST_CTRL` (R173). -/
def execRequestCtrl (s : State) : Outcome :=
  .next (s.mapEng fun e => ((e.lineOutput .low).setPhase 0).goTo cStartTransfer tLeadin)

/-- `START_TRANSFER` (R174): the pulses of the start mark of bit 7. -/
def execStartTransfer (s : State) : Outcome :=
  withPulse (startMark s.cfg (s.eng.pendingByte.getLsbD 7))
    (fun p =>
      lineWrite p.level
        (fun e => if e.phaseCounter = 1 then (e.setPhase 0).goTo cSendData p.ticks else (e.setPhase 1).stay p.ticks) s)
    s

/-- `SEND_DATA` (R175): bit `7 - PHASE_COUNTER`. -/
def execSendData (s : State) : Outcome :=
  withDataBit
    (fun b =>
      lineWrite (.ofBool b)
        (fun e =>
          if e.phaseCounter = 7 then (e.setPhase 0).goTo cEndTransfer uiTicks
          else (e.setPhase (e.phaseCounter + 1)).stay uiTicks) s)
    s

/-- `END_TRANSFER` (R176): the pulses of `end_seq(PARITY)`. -/
def execEndTransfer (s : State) : Outcome :=
  withPulse (endSeq s.cfg s.eng.parity)
    (fun p =>
      lineWrite p.level
        (fun e =>
          if e.phaseCounter.toNat = (endSeq s.cfg s.eng.parity).length - 1 then (e.setPhase 0).goTo cSendEndMping p.ticks
          else (e.setPhase (e.phaseCounter + 1)).stay p.ticks) s)
    s

/-- `SEND_END_MPING` (R177): both edges of the end ping. -/
def execSendEndMping (s : State) : Outcome :=
  if s.eng.phaseCounter = 0 then lineWrite .high (fun e => (e.setPhase 1).stay mpingTicks) s
  else lineWrite .low (fun e => (e.setPhase 0).goTo cWaitData tRelease) s

/-- `WAIT_DATA` (R178). -/
def execWaitData (s : State) : Outcome := .next (s.mapEng fun e => e.lineInput.goTo cRecvDataStart tWaitData)

/-- `RECV_DATA_START` (R179): the wait is the action; no sample is taken (R152). -/
def execRecvDataStart (s : State) : Outcome := .next (s.mapEng fun e => e.goTo cRecvDataEnd recvDataTicks)

/-- `RECV_DATA_END` (R180). -/
def execRecvDataEnd (s : State) : Outcome :=
  .next (s.mapEng fun e => (e.lineOutput .low).goTo cSendCfmMpingStart tSettle)

/-- `SEND_CFM_MPING_START` (R181). -/
def execSendCfmMpingStart (s : State) : Outcome :=
  .next (s.mapEng fun e => (e.lineOutput .high).goTo cSendCfmMpingEnd mpingTicks)

/-- `SEND_CFM_MPING_END` (R182). -/
def execSendCfmMpingEnd (s : State) : Outcome := lineWrite .low (·.goTo cWaitCfmSping tRelease) s

/-- `WAIT_CFM_SPING` (R183). -/
def execWaitCfmSping (s : State) : Outcome :=
  .next (s.mapEng fun e => (e.lineInput.setPhase 0).goTo cRecvCfmSpingStart tFirstPoll)

/-- `RECV_CFM_SPING_START` (R184). -/
def execRecvCfmSpingStart (s : State) : Outcome := spingWait cRecvCfmSpingEnd true s

/-- `RECV_CFM_SPING_END` (R185). -/
def execRecvCfmSpingEnd (s : State) : Outcome := spingMeasure cFinish true s

/-- The registers after `FINISH` up to its test (R186): safe default, `PHASE_COUNTER` cleared, a round more. -/
def Engine.countRound (e : Engine) : Engine :=
  { (e.lineOutput .low).setPhase 0 with roundCount := e.roundCount + 1 }

/-- `FINISH` (R186): `OK` and `done` after the last round, else the next round after the gap. -/
def execFinish (s : State) : Outcome :=
  let t := s.mapEng Engine.countRound
  if t.eng.roundCount.toNat ≥ s.cfg.afcCommCnt then
    .next ((t.mapEng fun e => { e with state := cOk, timer := 0, done := true }).signal .done)
  else .next (t.mapEng (·.goTo cMpingStart (roundGapTicks s.cfg)))

/-- `OK` (R187): no action. -/
def execOk (s : State) : Outcome := .next s

/-- `ERROR` (R188): no action. -/
def execError (s : State) : Outcome := .next s

end Sys2Proof.Machine
end

