-- ==== Sys2Proof/Machine/Symbols.lean ====
section
/-! DEFINITION. The meanings of the wire symbols (`42_byte_transfer.md`; R88, R89): the block plays the symbol's pulse sequence on
the data line (log 13); the adapter's symbol comes in on the line (log 14). -/

namespace Sys2Proof.Machine

/-- `MPING` (R142, R143): HIGH for 16 UI, then LOW. -/
def execMping (s : State) : Outcome := .next (playPulses pingPulses s)

/-- `SPING` (R144): the adapter holds the line HIGH for one UI, the next four ticks. -/
def execSping (s : State) : Outcome :=
  .next { s with env := { s.env with line := List.replicate uiTicks .high ++ s.env.line } }

/-- `LEADIN` (R146). -/
def execLeadin (s : State) : Outcome := .next (playPulses leadinPulses s)

/-- `START_MARK(1)` (R147). -/
def execStartMark1 (s : State) : Outcome := .next (playPulses (startMark s.cfg true) s)

/-- `START_MARK(0)` (R147). -/
def execStartMark0 (s : State) : Outcome := .next (playPulses (startMark s.cfg false) s)

/-- `BIT(b)` (R148). -/
def execBit (b : Bool) (s : State) : Outcome := .next (playPulses (bitPulses b) s)

/-- `PARITY_SLOT(p)` (R149). -/
def execParitySlot (p : Bool) (s : State) : Outcome := .next (playPulses (paritySlotPulses p) s)

/-- `TRAILER(0)` (R141). -/
def execTrailer0 (s : State) : Outcome := .next (playPulses (trailerPulses s.cfg false) s)

/-- `TRAILER(1)` (R141). -/
def execTrailer1 (s : State) : Outcome := .next (playPulses (trailerPulses s.cfg true) s)

/-- `GUARD` (R149). -/
def execGuard (s : State) : Outcome := .next (playPulses guardPulses s)

/-- `RECV_WINDOW` (R152): the line released for `T_WAITDATA + RECV_DATA_UI * U` ticks. -/
def execRecvWindow (s : State) : Outcome := .next (releaseFor (tWaitData + recvDataTicks) s)

/-- The frame of a byte with bit 7 = 1 and parity 0 (R89, R150). -/
def execFrameB71P0 (rest : BitVec 7) (s : State) : Outcome :=
  .next (playPulses (frameWith s.cfg (frameByte true rest) false) s)

/-- The frame of a byte with bit 7 = 1 and parity 1 (R89, R150). -/
def execFrameB71P1 (rest : BitVec 7) (s : State) : Outcome :=
  .next (playPulses (frameWith s.cfg (frameByte true rest) true) s)

/-- The frame of a byte with bit 7 = 0 and parity 0 (R89, R150). -/
def execFrameB70P0 (rest : BitVec 7) (s : State) : Outcome :=
  .next (playPulses (frameWith s.cfg (frameByte false rest) false) s)

/-- The frame of a byte with bit 7 = 0 and parity 1 (R89, R150). -/
def execFrameB70P1 (rest : BitVec 7) (s : State) : Outcome :=
  .next (playPulses (frameWith s.cfg (frameByte false rest) true) s)

end Sys2Proof.Machine
end

