-- ==== Sys2Proof/Machine/Dispatch.lean ====
section
/-! DEFINITION. The meaning of every instruction: one arm per constructor of `Instr`. -/

namespace Sys2Proof.Machine

def exec (i : Instr) (s : State) : Host.Outcome State Fault Refusal :=
  match i with
  | .nop => Sys2Proof.Machine.execNop s
  | .swon => Sys2Proof.Machine.execSwon s
  | .swoff => Sys2Proof.Machine.execSwoff s
  | .loadb imm => Sys2Proof.Machine.execLoadb imm s
  | .start => Sys2Proof.Machine.execStart s
  | .detach => Sys2Proof.Machine.execDetach s
  | .forceok => Sys2Proof.Machine.execForceok s
  | .rd n => Sys2Proof.Machine.execRd n s
  | .idle => Sys2Proof.Machine.execIdle s
  | .mpingStart => Sys2Proof.Machine.execMpingStart s
  | .mpingEnd => Sys2Proof.Machine.execMpingEnd s
  | .waitSping => Sys2Proof.Machine.execWaitSping s
  | .spingStart => Sys2Proof.Machine.execSpingStart s
  | .spingEnd => Sys2Proof.Machine.execSpingEnd s
  | .requestCtrl => Sys2Proof.Machine.execRequestCtrl s
  | .startTransfer => Sys2Proof.Machine.execStartTransfer s
  | .sendData => Sys2Proof.Machine.execSendData s
  | .endTransfer => Sys2Proof.Machine.execEndTransfer s
  | .sendEndMping => Sys2Proof.Machine.execSendEndMping s
  | .waitData => Sys2Proof.Machine.execWaitData s
  | .recvDataStart => Sys2Proof.Machine.execRecvDataStart s
  | .recvDataEnd => Sys2Proof.Machine.execRecvDataEnd s
  | .sendCfmMpingStart => Sys2Proof.Machine.execSendCfmMpingStart s
  | .sendCfmMpingEnd => Sys2Proof.Machine.execSendCfmMpingEnd s
  | .waitCfmSping => Sys2Proof.Machine.execWaitCfmSping s
  | .recvCfmSpingStart => Sys2Proof.Machine.execRecvCfmSpingStart s
  | .recvCfmSpingEnd => Sys2Proof.Machine.execRecvCfmSpingEnd s
  | .finish => Sys2Proof.Machine.execFinish s
  | .ok => Sys2Proof.Machine.execOk s
  | .error => Sys2Proof.Machine.execError s
  | .mping => Sys2Proof.Machine.execMping s
  | .sping => Sys2Proof.Machine.execSping s
  | .leadin => Sys2Proof.Machine.execLeadin s
  | .startMark1 => Sys2Proof.Machine.execStartMark1 s
  | .startMark0 => Sys2Proof.Machine.execStartMark0 s
  | .bit b => Sys2Proof.Machine.execBit b s
  | .paritySlot p => Sys2Proof.Machine.execParitySlot p s
  | .trailer0 => Sys2Proof.Machine.execTrailer0 s
  | .trailer1 => Sys2Proof.Machine.execTrailer1 s
  | .guard => Sys2Proof.Machine.execGuard s
  | .recvWindow => Sys2Proof.Machine.execRecvWindow s
  | .frameB71P0 rest => Sys2Proof.Machine.execFrameB71P0 rest s
  | .frameB71P1 rest => Sys2Proof.Machine.execFrameB71P1 rest s
  | .frameB70P0 rest => Sys2Proof.Machine.execFrameB70P0 rest s
  | .frameB70P1 rest => Sys2Proof.Machine.execFrameB70P1 rest s

end Sys2Proof.Machine
end

