-- ==== Sys2Proof/Machine/Session.lean ====
section
/-! DEFINITION. The Session/Retry Controller as the host agent (`45_session_controller.md` R220 to R234), at the reference timing of
R232 (log 20), and the pseudo-instructions of R95. -/

namespace Sys2Proof.Machine

/-! ## Predicates on a VBUS reading (R221) -/

/-- `CablePresent(v)`: `v > 3500`. -/
def cablePresent (v : Int) : Bool := decide (v > vbusPresentMv)

/-- `InBand(target, v)`: a failed read, `-1`, is in no band. -/
def inBand : Target → Int → Bool
  | .v5, v => decide (v ≠ -1) && decide (v < vbus5vMaxMv)
  | .v9, v => decide (v > vbus9vMinMv)

/-- `ctrl(target)` (R87, R222). -/
def ctrlByte : Target → Byte
  | .v5 => ctrl5v
  | .v9 => ctrl9v

/-- `success(target)` (R222). -/
def success : Target → AfcResult
  | .v5 => .afc5v
  | .v9 => .afc9v

/-- Step 1, the duplicate-request guard (R223). -/
def guardHolds (h : Controller) (t : Target) (v : Int) : Bool := decide (h.achieved = some t) && inBand t v

/-! ## The procedure -/

/-- What the controller does in a tick: the command it presents, its new state, its report. -/
structure HostMove where
  word : Option (BitVec 16)
  host : Controller
  report : Option AfcResult
  deriving DecidableEq, Repr

/-- A move without a report. -/
def HostMove.quiet (w : Option (BitVec 16)) (h : Controller) : HostMove where
  word := w
  host := h
  report := none

/-- Step 7 (R222, R228): report the outcome, record it, present `DETACH`. -/
def finishSession (o : AfcResult) (h : Controller) : HostMove where
  word := some wordDetach
  host := { h with result := some o, phase := .idle,
                   achieved := if o = .afcFail then none else some h.requestedVoltage }
  report := some o

/-- The calls of `request_voltage` that wait are made in order; a call the guard stops ends at once, the first that passes it is
the one in progress, and the others go on waiting (R222 step 1, R223, R231). -/
def admitCalls (v : Int) (h : Controller) : List Target → Controller
  | [] => { h with waiting := [] }
  | t :: ts =>
    if guardHolds h t v then admitCalls v { h with requestedVoltage := t } ts
    else { h with requestedVoltage := t, phase := .arm, waiting := ts }

/-- The controller's action in a tick in which the port is its own (R222, R232); `v` is the VBUS reading of the tick. DESIGN CHOICE
(log 30): in a tick in which `request_voltage` only waits, or polls and goes on, no word is presented, so there is no response. -/
def controllerAct (c : Cfg) (v : Int) (h : Controller) : HostMove :=
  match h.phase with
  | .idle => .quiet none h
  | .arm => .quiet (some wordSwon) { h with phase := .load (switchSettleTicks c) }
  | .load 0 => .quiet (some (wordLoadb (ctrlByte h.requestedVoltage))) { h with retryCount := 0, phase := .launch 0 }
  | .load (n + 1) => .quiet none { h with phase := .load n }
  | .launch 0 => .quiet (some wordStart) { h with phase := .waitEvent }
  | .launch (n + 1) => .quiet none { h with phase := .launch n }
  | .waitEvent => .quiet none h
  | .giveUp => .quiet (some wordForceok) { h with phase := .poll 1 0 }
  | .poll k 0 =>
    if inBand h.requestedVoltage v then finishSession (success h.requestedVoltage) h
    else if k < c.vbusRetryMax then .quiet none { h with phase := .poll (k + 1) (vbusPollTicks c - 1) }
    else finishSession .afcFail h
  | .poll k (n + 1) => .quiet none { h with phase := .poll k n }
  | .report o => finishSession o h

/-- The controller in a tick: calls that wait are made if none is in progress, then the call in progress goes on. -/
def controllerMove (c : Cfg) (v : Int) (h : Controller) : HostMove :=
  controllerAct c v (if h.phase = .idle then admitCalls v h h.waiting else h)

/-- The controller in a tick in which another context has the port: waits go on, actions are put off (R200, R231; log 17). -/
def controllerHold (h : Controller) : Controller :=
  match h.phase with
  | .load (n + 1) => { h with phase := .load n }
  | .launch (n + 1) => { h with phase := .launch n }
  | .poll k (n + 1) => { h with phase := .poll k n }
  | _ => h

/-- `detach()` on the host's side (R229): the call in progress is abandoned; `RESULT` is kept. -/
def abandonSession (h : Controller) : Controller := { h with phase := .idle, retryCount := 0, achieved := none }

/-- Step 5 and the exit of step 4 (R222, R225, R226): the controller sees `EVENT(t)` and reads VBUS at `t`. -/
def controllerSee (c : Cfg) (ev : Event) (v : Int) (h : Controller) : Controller :=
  if h.phase = .waitEvent then
    match ev with
    | .none => h
    | .done => { h with phase := .poll 1 0 }
    | .error =>
      if cablePresent v = false then { h with phase := .report .afcFail }
      else if h.retryCount = c.afcRetryMax then { h with phase := .giveUp }
      else { h with retryCount := h.retryCount + 1, phase := .launch (retryWaitTicks c) }
  else h

/-! ## Host programs (R94, R95) -/

/-- A line of a host program: a command word, or a pseudo-instruction of R95. -/
inductive AsmLine where
  | word (w : BitVec 16)
  | load5
  | load9
  | wait (n : Nat)
  | waitev
  | arm5
  | arm9
  deriving DecidableEq, Repr

/-- `n` times `NOP`. -/
def nopItems (n : Nat) : List HostItem := List.replicate n (.word wordNop)

/-- The expansion of a line (R95): what the host presents, one item per tick. -/
def expandLine (c : Cfg) : AsmLine → List HostItem
  | .word w => [.word w]
  | .load5 => [.word (wordLoadb ctrl5v)]
  | .load9 => [.word (wordLoadb ctrl9v)]
  | .wait n => nopItems n
  | .waitev => [.waitev]
  | .arm5 => .word wordSwon :: nopItems (switchSettleTicks c) ++ [.word (wordLoadb ctrl5v), .word wordStart]
  | .arm9 => .word wordSwon :: nopItems (switchSettleTicks c) ++ [.word (wordLoadb ctrl9v), .word wordStart]

/-- A program as the host's stream: one line after the other (R94). -/
def assemble (c : Cfg) : List AsmLine → List HostItem
  | [] => []
  | l :: ls => expandLine c l ++ assemble c ls

end Sys2Proof.Machine
end

