-- ==== Sys2Proof/Machine/Tick.lean ====
section
/-! DEFINITION. One tick of the system (`20_memory.md` R68): `rst` (R280), the host's command (R200, R201), the engine's step (R112), the
outputs (R14), the controller's view of `EVENT` (R232). -/

namespace Sys2Proof.Machine

/-! ## The host's part of a tick -/

/-- The outputs that are no registers, before a tick. -/
def State.clearOut (s : State) : State := { s with out := Out.none }

/-- The controller's move as an update of the state. -/
def State.applyMove (m : HostMove) (s : State) : State :=
  { s with host := m.host, out := { s.out with report := m.report } }

/-- The word at the command port in this tick and the host's new state (R68 (1), R200, R231; log 17). -/
def hostPresent (s : State) : Option (BitVec 16) × State :=
  match s.hostItem with
  | .quiet =>
    let m := controllerMove s.cfg s.vbus s.host
    (m.word, s.applyMove m)
  | .call ts =>
    let m := controllerMove s.cfg s.vbus { s.host with waiting := s.host.waiting ++ ts }
    (m.word, s.applyMove m)
  | .word w => (some w, { s with host := controllerHold s.host })
  | .waitev => (some wordNop, { s with host := controllerHold s.host })
  | .detach => (some wordDetach, { s with host := abandonSession s.host })

/-- The command port (R200, R201): an illegal word is refused, any other runs as the command it stands for. -/
def runWord (w : Option (BitVec 16)) (s : State) : Outcome :=
  match w with
  | none => .next s
  | some w =>
    match decodeCmd w with
    | none => reject .rejIllegal s
    | some i => exec i s

/-! ## The engine's part of a tick -/

/-- `if TIMER != 0: TIMER <- TIMER - 1` while busy (R112). -/
def Engine.countDown (e : Engine) : Engine :=
  if e.busy && decide (e.timer ≠ 0) then { e with timer := e.timer - 1 } else e

/-- The handler of `STATE` runs in this tick: `TIMER = 0` after the decrement (R112). In a resting state the handler is one
of `IDLE`, `OK`, `ERROR`, which do nothing (R113; log 16). -/
def Engine.due (e : Engine) : Bool := !e.busy || decide (e.timer = 0)

/-- The engine tick step (R112). -/
def engineTick (s : State) : Outcome :=
  let t := s.mapEng Engine.countDown
  match decodeState t.eng.state with
  | none => .refused .unreachableCode
  | some h => if t.eng.due then exec h t else .next t

/-! ## The end of a tick -/

/-- The controller sees the tick's event (R232). -/
def hostSee (s : State) : State := { s with host := controllerSee s.cfg s.out.event s.vbus s.host }

/-- The inputs of the tick are gone; `WAITEV` stays at the head until the tick of an event (R95). -/
def State.dropInputs (s : State) : State :=
  { s with env := { s.env with
      vbus := s.env.vbus.drop 1
      rst := s.env.rst.drop 1
      script := if s.hostItem = .waitev ∧ s.out.event = .none then s.env.script else s.env.script.drop 1 } }

/-- The outputs of the tick hold during `[t, t+1)` (R68 (3)), and the tick is over. -/
def endTick (s : State) : State := s.dropInputs.wireTick

/-! ## Ticks -/

/-- A tick with `rst` asserted (R280): the reset state, no response, no step, no event (log 9). -/
def resetTick (s : State) : State :=
  endTick { s with eng := Engine.reset, host := Controller.reset, bench := none, out := Out.none }

/-- An ordinary tick (R68). -/
def ordinaryTick (s : State) : Outcome :=
  let p := hostPresent s.clearOut
  andThen (runWord p.1 p.2) fun s2 => andThen (engineTick s2) fun s3 => .next (endTick (hostSee s3))

/-- A bench symbol may be played: the adapter's at any time, the block's own only while the line is not claimed (R40; log 15). -/
def benchReady (w : WireWord) (s : State) : Bool := decide (w.slot = .slavePing) || !s.eng.busy

/-- A bench symbol is played (log 15); after one of the block's own the line is at its safe default again (R133). -/
def benchStep (w : WireWord) (s : State) : Outcome :=
  match decodeWire w with
  | none => .refused .notASymbol
  | some i =>
    andThen (exec i { s.clearOut with bench := none }) fun t =>
      .next (if w.slot = .slavePing then t else t.mapEng (·.lineOutput .low))

/-- `STATE` and `LAST_ERROR` hold codes some rule writes (R84, R28, U7, U10). -/
def Engine.codesLegal (e : Engine) : Bool := legalCode e.state && decide (e.lastError.toNat ≤ 3)

/-- "A model refuses any other" (R8, R293): an ill-formed configuration has no step. -/
def refuseIllFormed (c : Cfg) (o : Outcome) : Outcome := if cfgWf c = false then .refused .illFormedConfig else o

/-- A tick without `rst`: codes no rule writes are refused; a symbol at the bench is played if it may be; else the tick is an
ordinary one. -/
def liveTick (s : State) : Outcome :=
  if s.eng.codesLegal = false then .refused .unreachableCode
  else
    match s.bench with
    | none => ordinaryTick s
    | some w => if benchReady w s then benchStep w s else ordinaryTick s

/-- One step of the system. -/
def tickStep (s : State) : Outcome :=
  match s.rstNow with
  | true => refuseIllFormed s.cfg (.next (resetTick s))
  | false => refuseIllFormed s.cfg (liveTick s)

end Sys2Proof.Machine
end

