-- ==== Sys2Proof/Machine/Step.lean ====
section
/-! DEFINITION. The step of the machine: one tick (log 1), and the place of the next instruction. -/

namespace Sys2Proof.Machine

/-- One step is one tick (R68). -/
def step (s : State) : Host.Outcome State Fault Refusal := tickStep s

/-- The state with a word of the table where the next step takes its instruction (log 6). -/
def State.withFetchWord (s : State) (nbits w : Nat) : State := placeTableWord nbits w s

end Sys2Proof.Machine
end

