-- ==== Sys2Proof/Safety.lean ====
section
/-! DEFINITION. The terms the claims use: the invariant of the reachable states (`10_state.md` R33, R41), the quiet environment, the order
of the states (R165), the bound on a handshake (R292), and the two views of a run (samples, levels on the wire). -/

namespace Sys2Proof.Machine

/-! ## The invariant -/

/-- The greatest value of `PHASE_COUNTER` (R33). -/
def phaseMax (c : Cfg) : Nat := max (max c.waitSpingCount (c.spingMaxUi + 1)) 8

/-- The values of `PHASE_COUNTER` in each state (R23). -/
def phaseOk (c : Cfg) (e : Engine) : Prop :=
  match e.state.toNat with
  | 4 | 17 => e.phaseCounter.toNat < c.waitSpingCount
  | 5 | 18 => 1 ≤ e.phaseCounter.toNat ∧ e.phaseCounter.toNat ≤ c.spingMaxUi
  | 6 | 19 => c.spingMinUi ≤ e.phaseCounter.toNat ∧ e.phaseCounter.toNat ≤ c.spingMaxUi
  | 7 | 10 => e.phaseCounter.toNat ≤ 1
  | 8 => e.phaseCounter.toNat ≤ 7
  | 9 => e.phaseCounter.toNat < (endSeq c e.parity).length
  | 20 | 21 => e.phaseCounter.toNat ≤ phaseMax c
  | _ => e.phaseCounter = 0

/-- The invariant of the engine at tick boundaries: R41 (I-a) to (I-h), R33, and what makes them inductive. -/
structure Engine.Inv (c : Cfg) (e : Engine) : Prop where
  /-- (I-a) -/
  parity_eq : e.parity = Machine.parity e.pendingByte
  /-- (I-b) -/
  round_le : e.roundCount.toNat ≤ c.afcCommCnt
  /-- A handshake in progress has a round to go (R186). -/
  round_lt : e.busy = true → e.roundCount.toNat < c.afcCommCnt
  /-- (I-c), with the direction in `dir_eq` -/
  rest_timer : e.busy = false → e.timer = 0
  /-- (I-c), with the direction in `dir_eq` -/
  rest_dout : e.busy = false → e.dout = .low
  /-- (I-c), (I-g): each handler finds the direction its phase has set (R166). -/
  dir_eq : e.dir = dirAt e.state
  /-- (I-d) -/
  state_le : e.state.toNat ≤ 21
  /-- (I-e) -/
  err_eq : e.err = errOf e.lastError
  /-- (I-e), code 4 is never raised (R254). -/
  error_le : e.lastError.toNat ≤ 3
  /-- `ERR_PHASE` is 0 if there is no error (R29). -/
  errPhase_of : e.errPhase = true → e.err = true
  /-- (I-f) -/
  done_of : e.done = true → e.state = cOk ∧ e.roundCount.toNat = c.afcCommCnt
  /-- (I-h) -/
  error_of : e.state = cError → e.err = true
  /-- An error record stands only where a handshake is over (R205, R255). -/
  err_of : e.err = true → e.busy = false
  /-- R112 (b): a busy engine waits for a handler. -/
  timer_pos : e.busy = true → 1 ≤ e.timer.toNat
  /-- R33. -/
  timer_le : e.timer.toNat ≤ timerMax c
  /-- R23, R33. -/
  phase_ok : phaseOk c e

/-- The invariant of the system. -/
structure State.Inv (s : State) : Prop where
  /-- The configuration is well formed (R8). -/
  cfg_wf : cfgWf s.cfg = true
  /-- The engine's part. -/
  eng_inv : s.eng.Inv s.cfg
  /-- `RETRY_COUNT` never exceeds `AFC_RETRY_MAX` (R42, R225). -/
  retry_le : s.host.retryCount ≤ s.cfg.afcRetryMax

/-! ## Environments -/

/-- No command, no call, no reset, no bench symbol to come; the adapter and VBUS are free. -/
structure State.Quiet (s : State) : Prop where
  script_nil : s.env.script = []
  rst_nil : s.env.rst = []
  bench_none : s.bench = none
  phase_idle : s.host.phase = .idle
  waiting_nil : s.host.waiting = []

/-- What lets a step go on to the tick proper: a well-formed configuration, no reset, codes some rule writes, an empty bench. -/
structure State.Ready (s : State) : Prop where
  cfg_wf : cfgWf s.cfg = true
  no_rst : s.rstNow = false
  codes : s.eng.codesLegal = true
  no_bench : s.bench = none

/-! ## The order of the states (R165) -/

/-- The states the handler of a state may lead to (R165, R190). -/
def successors (c : BitVec 5) : List (BitVec 5) :=
  match c.toNat with
  | 0 => [cIdle]
  | 4 => [cSpingStart, cSpingEnd, cError]
  | 5 => [cSpingEnd, cRequestCtrl, cError]
  | 7 => [cStartTransfer, cSendData]
  | 8 => [cSendData, cEndTransfer]
  | 9 => [cEndTransfer, cSendEndMping]
  | 10 => [cSendEndMping, cWaitData]
  | 17 => [cRecvCfmSpingStart, cRecvCfmSpingEnd, cError]
  | 18 => [cRecvCfmSpingEnd, cFinish, cError]
  | 19 => [cMpingStart, cOk]
  | 20 => [cOk]
  | 21 => [cError]
  | _ => [c + 1]

/-! ## The bound on a handshake (R292) -/

/-- `RoundMax` (R292), with 52 ticks for the byte frame. -/
def roundMax (c : Cfg) : Nat := 447 + 8 * (c.waitSpingCount + c.spingMaxUi)

/-- The bound on the ticks from `START` to its event (R292). -/
def handshakeMax (c : Cfg) : Nat := c.afcCommCnt * roundMax c + (c.afcCommCnt - 1) * roundGapTicks c

/-- The shapes are those of R141 and R147. -/
def DefaultShapes (c : Cfg) : Prop :=
  c.startMark0 = defaultStartMark false ∧ c.startMark1 = defaultStartMark true
    ∧ c.trailer0 = defaultTrailer false ∧ c.trailer1 = defaultTrailer true

/-! ## Runs -/

/-- `k` steps of the machine. -/
abbrev runs (k : Nat) (s : State) : Outcome := Host.Core.run core k s

/-- The reception of a SPING sample by sample (R145): in a reception state the handler runs with each sample in turn as `LineIn`; in any
other state the reception is over. -/
def receive : List Level → State → Outcome
  | [], s => .next s
  | l :: ls, s =>
    if s.eng.state = cSpingStart then
      andThen (exec .spingStart { s with env := { s.env with line := [l] } }) (receive ls)
    else if s.eng.state = cSpingEnd then
      andThen (exec .spingEnd { s with env := { s.env with line := [l] } }) (receive ls)
    else if s.eng.state = cRecvCfmSpingStart then
      andThen (exec .recvCfmSpingStart { s with env := { s.env with line := [l] } }) (receive ls)
    else if s.eng.state = cRecvCfmSpingEnd then
      andThen (exec .recvCfmSpingEnd { s with env := { s.env with line := [l] } }) (receive ls)
    else .next s

/-- `t` is `s` after the block has driven the levels `lv`, one a tick: the trace shows them, the pad keeps the last one,
nothing else has changed but the time (R14, R88, R114). -/
def Drives (lv : List Level) (s t : State) : Prop :=
  t = { s with
    eng := { s.eng with dir := .output, dout := lv.getLastD s.eng.dout }
    tick := s.tick + lv.length
    env := { s.env with line := s.env.line.drop lv.length }
    trace := (lv.map fun l => (⟨.output, l, s.eng.switch, s.out, l⟩ : TickOut)).reverse ++ s.trace }

end Sys2Proof.Machine
end

