-- ==== Sys2Proof/Certificates/Slice0/Obligations.lean ====
section
/-! DEFINITION. The statements for the provers. Each docstring names the rule of `spec/` it formalises; where a clause rests on a choice of
the model, the docstring names the log entry. -/

open Sys2Proof Sys2Proof.Machine

/-! ## Encodings -/

/-- Every well-formed instruction is read back from its word (R82, R84, R88, R89, R96). Where a wire symbol is read, its slot is given
with it (log 23). -/
def Obligations.DecodeInvertsEncode : Prop :=
  ∀ i : Instr, i.wf = true → decode (encode i) = some i

/-- Every word that decodes is the word of the well-formed instruction it decodes to: no word has two readings and none is read
loosely (R82, R84, R92, R96). -/
def Obligations.EncodeInvertsDecode : Prop :=
  ∀ (c : Code) (i : Instr), decode c = some i → encode i = c ∧ i.wf = true

/-- R92: which command words are illegal, and what becomes of them; `RD` of 5 to 15; the one no-op; the state codes 22 to 31. -/
def Obligations.IllegalEncodingsAreRefused : Prop :=
  (∀ w : BitVec 16, decodeCmd w = none ↔
      8 ≤ (w.extractLsb' 12 4).toNat ∨ w.extractLsb' 8 4 ≠ 0
        ∨ ((w.extractLsb' 12 4).toNat ∈ [0, 1, 2, 4, 5, 6] ∧ w.extractLsb' 0 8 ≠ 0)
        ∨ ((w.extractLsb' 12 4).toNat = 7 ∧ w.extractLsb' 4 4 ≠ 0))
    ∧ (∀ (w : BitVec 16) (s : State), decodeCmd w = none →
        runWord (some w) s = .next { s with out := { s.out with resp := some ⟨.rejIllegal, 0⟩ } })
    ∧ (∀ (n : BitVec 4) (s : State), 5 ≤ n.toNat →
        decodeCmd (0x7000 + n.setWidth 16) = some (.rd n)
          ∧ exec (.rd n) s = .next { s with out := { s.out with resp := some ⟨.rejIllegal, 0⟩ } })
    ∧ decodeCmd 0x0000 = some .nop
    ∧ (∀ c : BitVec 5, 22 ≤ c.toNat → decodeState c = none)
    ∧ (∀ s : State, cfgWf s.cfg = true → s.rstNow = false → 22 ≤ s.eng.state.toNat →
        step s = .refused .unreachableCode)

/-- R84: the code of a state is its position in the pipeline; 22 to 31 name no state. And words written out from the encodings of
R82, R84, R88 and R89 decode to what they stand for. -/
def Obligations.CodesAndWordsNameTheirInstructions : Prop :=
  (∀ c : BitVec 5, decodeState c =
      [Instr.idle, .mpingStart, .mpingEnd, .waitSping, .spingStart, .spingEnd, .requestCtrl, .startTransfer, .sendData,
        .endTransfer, .sendEndMping, .waitData, .recvDataStart, .recvDataEnd, .sendCfmMpingStart, .sendCfmMpingEnd,
        .waitCfmSping, .recvCfmSpingStart, .recvCfmSpingEnd, .finish, .ok, .error][c.toNat]?)
    ∧ decodeCmd 0x3046 = some (.loadb 0x46) ∧ decodeCmd 0x7002 = some (.rd 2) ∧ decodeCmd 0x4000 = some .start
    ∧ decodeCmd 0x5000 = some .detach
    ∧ decodeWire ⟨.trailer, [.low, .high, .low]⟩ = some .trailer1
    ∧ decodeWire ⟨.startMark, [.high, .high, .low, .low]⟩ = some .startMark0
    ∧ decodeWire ⟨.dataBit, [.high, .high, .high, .high]⟩ = some (.bit true)

/-! ## Host commands -/

/-- R203, R209, and R202's response: `NOP`, `SWON` and `SWOFF` are accepted in every state and do nothing else. -/
def Obligations.NopSwonSwoffAlwaysAccepted : Prop :=
  decodeCmd 0x0000 = some .nop ∧ decodeCmd 0x1000 = some .swon ∧ decodeCmd 0x2000 = some .swoff
    ∧ ∀ s : State,
      exec .nop s = .next { s with out := { s.out with resp := some ⟨.ack, 0⟩ } }
        ∧ exec .swon s = .next { s with eng := { s.eng with switch := true }
                                        out := { s.out with resp := some ⟨.ack, 0⟩ } }
        ∧ exec .swoff s = .next { s with eng := { s.eng with switch := false }
                                         out := { s.out with resp := some ⟨.ack, 0⟩ } }

/-- R204: `LOADB` writes the byte and its parity in one step, unless the block is busy. -/
def Obligations.LoadbWritesByteAndParity : Prop :=
  ∀ (b : Byte) (s : State),
    decodeCmd (0x3000 + b.setWidth 16) = some (.loadb b)
      ∧ (s.eng.state = cIdle ∨ s.eng.state = cOk ∨ s.eng.state = cError →
          exec (.loadb b) s = .next { s with eng := { s.eng with pendingByte := b, parity := decide (popcount b % 2 = 1) }
                                             out := { s.out with resp := some ⟨.ack, 0⟩ } })
      ∧ (¬(s.eng.state = cIdle ∨ s.eng.state = cOk ∨ s.eng.state = cError) →
          exec (.loadb b) s = .next { s with out := { s.out with resp := some ⟨.rejBusy, 0⟩ } })

/-- R205, R71: `START` claims the line unless the block is busy; it clears the counters, the error record and the flags and nothing else. -/
def Obligations.StartClaimsTheLine : Prop :=
  decodeCmd 0x4000 = some .start
    ∧ ∀ s : State,
      (s.eng.state = cIdle ∨ s.eng.state = cOk ∨ s.eng.state = cError →
        exec .start s = .next { s with
          eng := { s.eng with state := cMpingStart, timer := 0, phaseCounter := 0, roundCount := 0, lastError := 0,
                              errPhase := false, err := false, done := false }
          out := { s.out with resp := some ⟨.ack, 0⟩ } })
        ∧ (¬(s.eng.state = cIdle ∨ s.eng.state = cOk ∨ s.eng.state = cError) →
          exec .start s = .next { s with out := { s.out with resp := some ⟨.rejBusy, 0⟩ } })

/-- R206: `DETACH` is accepted in every state; the engine is then in the reset state of R45. -/
def Obligations.DetachResetsTheEngine : Prop :=
  decodeCmd 0x5000 = some .detach
    ∧ ∀ s : State, exec .detach s = .next { s with
        eng := { state := cIdle, phaseCounter := 0, timer := 0, pendingByte := 0x00, parity := false, roundCount := 0,
                 lastError := 0, errPhase := false, dir := .output, dout := .low, switch := false, done := false,
                 err := false }
        out := { s.out with resp := some ⟨.ack, 0⟩ } }

/-- R207: `FORCEOK` moves `ERROR` to `OK`, keeps the error record, and is refused in every other state. -/
def Obligations.ForceokLeavesErrorOnly : Prop :=
  decodeCmd 0x6000 = some .forceok
    ∧ ∀ s : State,
      (s.eng.state = cError →
        exec .forceok s = .next { s with eng := { s.eng with state := cOk }
                                         out := { s.out with resp := some ⟨.ack, 0⟩ } })
        ∧ (s.eng.state ≠ cError →
          exec .forceok s = .next { s with out := { s.out with resp := some ⟨.rejState, 0⟩ } })

/-- R208: `RD n` answers the status register for `n` up to 4, `REJ_ILLEGAL` with data 0 above, and changes nothing. -/
def Obligations.RdAnswersTheStatusRegister : Prop :=
  ∀ (n : BitVec 4) (s : State),
    decodeCmd (0x7000 + n.setWidth 16) = some (.rd n)
      ∧ (n.toNat ≤ 4 → ∃ d, regRead s.eng n = some d
          ∧ exec (.rd n) s = .next { s with out := { s.out with resp := some ⟨.ack, d⟩ } })
      ∧ (4 < n.toNat → exec (.rd n) s = .next { s with out := { s.out with resp := some ⟨.rejIllegal, 0⟩ } })

/-- R44 (and R67): the fields of the five status registers; the bits not listed read 0; their values after reset. -/
def Obligations.StatusRegisterFields : Prop :=
  (regRead Engine.reset 0 = some 0x00000500 ∧ regRead Engine.reset 1 = some 0 ∧ regRead Engine.reset 2 = some 0
    ∧ regRead Engine.reset 3 = some 0 ∧ regRead Engine.reset 4 = some 0)
  ∧ ∀ e : Engine, ∃ x0 x1 x2 x3 : BitVec 32,
    regRead e 0 = some x0 ∧ regRead e 1 = some x1 ∧ regRead e 2 = some x2 ∧ regRead e 3 = some x3
      ∧ regRead e 4 = some e.timer ∧ (∀ n : BitVec 4, 5 ≤ n.toNat → regRead e n = none)
      ∧ x0.extractLsb' 0 5 = e.state
      ∧ (x0.getLsbD 5 = true ↔ e.state ≠ cIdle ∧ e.state ≠ cOk ∧ e.state ≠ cError)
      ∧ x0.getLsbD 6 = e.done ∧ x0.getLsbD 7 = e.err
      ∧ (x0.getLsbD 8 = true ↔ e.dir = .output) ∧ (x0.getLsbD 9 = true ↔ e.dout = .high)
      ∧ (x0.getLsbD 10 = true ↔ e.dir = .output) ∧ x0.getLsbD 11 = e.switch ∧ x0.getLsbD 12 = e.parity
      ∧ x0.extractLsb' 13 19 = 0
      ∧ x1.extractLsb' 0 3 = e.lastError ∧ x1.getLsbD 3 = e.errPhase ∧ x1.extractLsb' 4 28 = 0
      ∧ x2.extractLsb' 0 8 = e.roundCount ∧ x2.extractLsb' 8 8 = e.phaseCounter ∧ x2.extractLsb' 16 16 = 0
      ∧ x3.extractLsb' 0 8 = e.pendingByte ∧ x3.getLsbD 8 = e.parity ∧ x3.extractLsb' 9 23 = 0

/-- R201: every word gets its response at once, in the order of tests of the rule; a word that is not accepted has data 0 and changes
no register and no event, an accepted one is performed; no command raises an event or enters `ERROR`. -/
def Obligations.EveryWordIsAnsweredInOrder : Prop :=
  ∀ (w : BitVec 16) (s : State), ∃ (t : State) (r : Response),
    runWord (some w) s = .next t ∧ t.out.resp = some r
      ∧ r.code =
        (if decodeCmd w = none then RespCode.rejIllegal
         else if (w.extractLsb' 12 4 = 3 ∨ w.extractLsb' 12 4 = 4) ∧ s.eng.busy = true then .rejBusy
         else if w.extractLsb' 12 4 = 6 ∧ s.eng.state ≠ cError then .rejState
         else if w.extractLsb' 12 4 = 7 ∧ 4 < (w.extractLsb' 0 4).toNat then .rejIllegal
         else .ack)
      ∧ (r.code ≠ .ack → r.data = 0 ∧ t = { s with out := { s.out with resp := some r } })
      ∧ (r.code = .ack → ∃ i, decodeCmd w = some i ∧ exec i s = .next t)
      ∧ t.out.event = s.out.event ∧ (t.eng.state = cError → s.eng.state = cError)

/-! ## State handlers -/

/-- R167, R187, R188: the handlers of the terminal states do nothing. R168, R173, R180, R181: the handlers that take the line
(`LineOutput`) and go on after a fixed delay. -/
def Obligations.TerminalAndLineTakingHandlers : Prop :=
  ∀ s : State,
    exec .idle s = .next s ∧ exec .ok s = .next s ∧ exec .error s = .next s
      ∧ exec .mpingStart s = .next { s with
        eng := { s.eng with dir := .output, dout := .high, state := cMpingEnd, timer := 64 } }
      ∧ exec .requestCtrl s = .next { s with
        eng := { s.eng with dir := .output, dout := .low, phaseCounter := 0, state := cStartTransfer, timer := 4 } }
      ∧ exec .recvDataEnd s = .next { s with
        eng := { s.eng with dir := .output, dout := .low, state := cSendCfmMpingStart, timer := 4 } }
      ∧ exec .sendCfmMpingStart s = .next { s with
        eng := { s.eng with dir := .output, dout := .high, state := cSendCfmMpingEnd, timer := 64 } }

/-- R169, R182: the falling edges of the master ping and of the confirm ping. -/
def Obligations.FallingEdgeHandlers : Prop :=
  ∀ s : State, s.eng.dir = .output →
    exec .mpingEnd s = .next { s with eng := { s.eng with dout := .low, state := cWaitSping, timer := 1 } }
      ∧ exec .sendCfmMpingEnd s = .next { s with
        eng := { s.eng with dout := .low, state := cWaitCfmSping, timer := 1 } }

/-- R170, R178, R179, R183: the handlers that release the line or wait while it is released; `DOUT` is kept. -/
def Obligations.LineReleasingHandlers : Prop :=
  ∀ s : State,
    exec .waitSping s = .next { s with
        eng := { s.eng with dir := .input, phaseCounter := 0, state := cSpingStart, timer := 4 } }
      ∧ exec .waitData s = .next { s with eng := { s.eng with dir := .input, state := cRecvDataStart, timer := 4 } }
      ∧ exec .recvDataStart s = .next { s with eng := { s.eng with state := cRecvDataEnd, timer := 184 } }
      ∧ exec .waitCfmSping s = .next { s with
        eng := { s.eng with dir := .input, phaseCounter := 0, state := cRecvCfmSpingStart, timer := 4 } }

/-- R171, R184: one sample of the wait window, for the first SPING (`ERR_PHASE` 0) and the confirm SPING (1). -/
def Obligations.SpingWaitHandlers : Prop :=
  ∀ s : State, s.eng.dir = .input →
    (s.lineIn = .high →
      exec .spingStart s = .next { s with eng := { s.eng with phaseCounter := 1, state := cSpingEnd, timer := 4 } }
        ∧ exec .recvCfmSpingStart s = .next { s with
          eng := { s.eng with phaseCounter := 1, state := cRecvCfmSpingEnd, timer := 4 } })
    ∧ (s.lineIn = .low → (s.eng.phaseCounter + 1).toNat < s.cfg.waitSpingCount →
      exec .spingStart s = .next { s with eng := { s.eng with phaseCounter := s.eng.phaseCounter + 1, timer := 4 } }
        ∧ exec .recvCfmSpingStart s = .next { s with
          eng := { s.eng with phaseCounter := s.eng.phaseCounter + 1, timer := 4 } })
    ∧ (s.lineIn = .low → s.cfg.waitSpingCount ≤ (s.eng.phaseCounter + 1).toNat →
      exec .spingStart s = .next { s with
          eng := { s.eng with phaseCounter := s.eng.phaseCounter + 1, dir := .output, dout := .low, state := cError,
                              lastError := 1, errPhase := false, err := true, timer := 0 }
          out := { s.out with event := .error } }
        ∧ exec .recvCfmSpingStart s = .next { s with
          eng := { s.eng with phaseCounter := s.eng.phaseCounter + 1, dir := .output, dout := .low, state := cError,
                              lastError := 1, errPhase := true, err := true, timer := 0 }
          out := { s.out with event := .error } })

/-- R172, R185: one sample of a SPING, for the first SPING (`ERR_PHASE` 0) and the confirm SPING (1). -/
def Obligations.SpingMeasureHandlers : Prop :=
  ∀ s : State, s.eng.dir = .input →
    (s.lineIn = .high → (s.eng.phaseCounter + 1).toNat ≤ s.cfg.spingMaxUi →
      exec .spingEnd s = .next { s with eng := { s.eng with phaseCounter := s.eng.phaseCounter + 1, timer := 4 } }
        ∧ exec .recvCfmSpingEnd s = .next { s with
          eng := { s.eng with phaseCounter := s.eng.phaseCounter + 1, timer := 4 } })
    ∧ (s.lineIn = .high → s.cfg.spingMaxUi < (s.eng.phaseCounter + 1).toNat →
      exec .spingEnd s = .next { s with
          eng := { s.eng with phaseCounter := s.eng.phaseCounter + 1, dir := .output, dout := .low, state := cError,
                              lastError := 3, errPhase := false, err := true, timer := 0 }
          out := { s.out with event := .error } }
        ∧ exec .recvCfmSpingEnd s = .next { s with
          eng := { s.eng with phaseCounter := s.eng.phaseCounter + 1, dir := .output, dout := .low, state := cError,
                              lastError := 3, errPhase := true, err := true, timer := 0 }
          out := { s.out with event := .error } })
    ∧ (s.lineIn = .low → s.eng.phaseCounter.toNat < s.cfg.spingMinUi →
      exec .spingEnd s = .next { s with
          eng := { s.eng with dir := .output, dout := .low, state := cError, lastError := 2, errPhase := false,
                              err := true, timer := 0 }
          out := { s.out with event := .error } }
        ∧ exec .recvCfmSpingEnd s = .next { s with
          eng := { s.eng with dir := .output, dout := .low, state := cError, lastError := 2, errPhase := true,
                              err := true, timer := 0 }
          out := { s.out with event := .error } })
    ∧ (s.lineIn = .low → s.cfg.spingMinUi ≤ s.eng.phaseCounter.toNat →
      exec .spingEnd s = .next { s with eng := { s.eng with state := cRequestCtrl, timer := 4 } }
        ∧ exec .recvCfmSpingEnd s = .next { s with eng := { s.eng with state := cFinish, timer := 4 } })

/-- R174: the two pulses of the start mark of bit 7, for every shape `[m0, m1]` of the mark. -/
def Obligations.StartTransferPlaysTheMark : Prop :=
  ∀ (s : State) (m0 m1 : Pulse), s.eng.dir = .output →
    (if s.eng.pendingByte.getLsbD 7 then s.cfg.startMark1 else s.cfg.startMark0) = [m0, m1] →
    (s.eng.phaseCounter = 0 →
      exec .startTransfer s = .next { s with
        eng := { s.eng with dout := m0.level, phaseCounter := 1, timer := BitVec.ofNat 32 m0.ticks } })
    ∧ (s.eng.phaseCounter = 1 →
      exec .startTransfer s = .next { s with
        eng := { s.eng with dout := m1.level, phaseCounter := 0, state := cSendData,
                            timer := BitVec.ofNat 32 m1.ticks } })

/-- R175: bit `7 - PHASE_COUNTER`, MSB first, one UI each; after bit 0 the parity slot follows. -/
def Obligations.SendDataDrivesTheBit : Prop :=
  ∀ (s : State) (l : Level), s.eng.dir = .output →
    (s.eng.phaseCounter.toNat < 7 →
      l.toBool = s.eng.pendingByte.getLsbD (7 - s.eng.phaseCounter.toNat) →
      exec .sendData s = .next { s with
        eng := { s.eng with dout := l, phaseCounter := s.eng.phaseCounter + 1, timer := 4 } })
    ∧ (s.eng.phaseCounter.toNat = 7 →
      l.toBool = s.eng.pendingByte.getLsbD 0 →
      exec .sendData s = .next { s with
        eng := { s.eng with dout := l, phaseCounter := 0, state := cEndTransfer, timer := 4 } })

/-- R176: pulse number `PHASE_COUNTER` of `end_seq(PARITY)`; after the last one the end ping follows. With the shapes of R141 the sequence
has 3 pulses for parity 0 and 5 for parity 1. -/
def Obligations.EndTransferPlaysTheEndSequence : Prop :=
  ∀ (s : State) (p : Pulse), s.eng.dir = .output →
    (endSeq s.cfg s.eng.parity)[s.eng.phaseCounter.toNat]? = some p →
    (DefaultShapes s.cfg → (endSeq s.cfg s.eng.parity).length = if s.eng.parity then 5 else 3)
    ∧ (s.eng.phaseCounter.toNat + 1 < (endSeq s.cfg s.eng.parity).length →
      exec .endTransfer s = .next { s with
        eng := { s.eng with dout := p.level, phaseCounter := s.eng.phaseCounter + 1,
                            timer := BitVec.ofNat 32 p.ticks } })
    ∧ (s.eng.phaseCounter.toNat + 1 = (endSeq s.cfg s.eng.parity).length →
      exec .endTransfer s = .next { s with
        eng := { s.eng with dout := p.level, phaseCounter := 0, state := cSendEndMping,
                            timer := BitVec.ofNat 32 p.ticks } })

/-- R177: both edges of the end ping. -/
def Obligations.SendEndMpingDrivesBothEdges : Prop :=
  ∀ s : State, s.eng.dir = .output →
    (s.eng.phaseCounter = 0 →
      exec .sendEndMping s = .next { s with eng := { s.eng with dout := .high, phaseCounter := 1, timer := 64 } })
    ∧ (s.eng.phaseCounter ≠ 0 →
      exec .sendEndMping s = .next { s with
        eng := { s.eng with dout := .low, phaseCounter := 0, state := cWaitData, timer := 1 } })

/-- R186: a round more; after the last round `OK`, `DONE` and the event `done`, else the next round after the gap. -/
def Obligations.FinishCountsTheRound : Prop :=
  ∀ s : State,
    (s.cfg.afcCommCnt ≤ (s.eng.roundCount + 1).toNat →
      exec .finish s = .next { s with
        eng := { s.eng with dir := .output, dout := .low, phaseCounter := 0, roundCount := s.eng.roundCount + 1,
                            state := cOk, timer := 0, done := true }
        out := { s.out with event := .done } })
    ∧ ((s.eng.roundCount + 1).toNat < s.cfg.afcCommCnt →
      exec .finish s = .next { s with
        eng := { s.eng with dir := .output, dout := .low, phaseCounter := 0, roundCount := s.eng.roundCount + 1,
                            state := cMpingStart, timer := BitVec.ofNat 32 (roundGapTicks s.cfg) } })

/-- R128, R129, U12: `LineWrite` has no meaning while `DIR = INPUT`, `LineRead` none while `DIR = OUTPUT`: the handlers that
use them are refused there. And log 12: where `PHASE_COUNTER` selects no pulse or no bit, the handler faults. -/
def Obligations.PadPreconditionsAreKept : Prop :=
  (∀ s : State, s.eng.dir = .input →
    exec .mpingEnd s = .refused .lineWriteWhileInput ∧ exec .sendCfmMpingEnd s = .refused .lineWriteWhileInput
      ∧ exec .sendEndMping s = .refused .lineWriteWhileInput
      ∧ (s.eng.phaseCounter.toNat < (startMark s.cfg (s.eng.pendingByte.getLsbD 7)).length →
          exec .startTransfer s = .refused .lineWriteWhileInput)
      ∧ (s.eng.phaseCounter.toNat ≤ 7 → exec .sendData s = .refused .lineWriteWhileInput)
      ∧ (s.eng.phaseCounter.toNat < (endSeq s.cfg s.eng.parity).length →
          exec .endTransfer s = .refused .lineWriteWhileInput))
    ∧ (∀ s : State, s.eng.dir = .output →
      exec .spingStart s = .refused .lineReadWhileOutput ∧ exec .spingEnd s = .refused .lineReadWhileOutput
        ∧ exec .recvCfmSpingStart s = .refused .lineReadWhileOutput
        ∧ exec .recvCfmSpingEnd s = .refused .lineReadWhileOutput)
    ∧ (∀ s : State,
      ((startMark s.cfg (s.eng.pendingByte.getLsbD 7)).length ≤ s.eng.phaseCounter.toNat →
          exec .startTransfer s = .fault .pulseIndexOutOfRange)
        ∧ (7 < s.eng.phaseCounter.toNat → exec .sendData s = .fault .pulseIndexOutOfRange)
        ∧ ((endSeq s.cfg s.eng.parity).length ≤ s.eng.phaseCounter.toNat →
          exec .endTransfer s = .fault .pulseIndexOutOfRange))

/-- R255: the error entry; every register not named in it is kept. -/
def Obligations.ErrorEntryRecordsAndReleases : Prop :=
  ∀ (code : BitVec 3) (phase : Bool) (s : State), code ≠ 0 →
    raiseSpingError code phase s = { s with
      eng := { s.eng with dir := .output, dout := .low, state := cError, lastError := code, errPhase := phase,
                          err := true, timer := 0 }
      out := { s.out with event := .error } }

/-! ## Wire symbols -/

/-- R142, R146, R148, R149 and, for the shapes of R141 and R147, `trailer_pulses`, `start_mark` and `end_seq`; the length law of R89. -/
def Obligations.SymbolPulseSequences : Prop :=
  pingPulses = [⟨.high, 64⟩, ⟨.low, 1⟩] ∧ leadinPulses = [⟨.low, 4⟩]
    ∧ (∀ b : Byte, dataBits b = [7, 6, 5, 4, 3, 2, 1, 0].map fun k => ⟨Level.ofBool (b.getLsbD k), 4⟩)
    ∧ (∀ (c : Cfg) (p : Bool), endSeq c p =
        [⟨Level.ofBool p, 4⟩] ++ (if p then c.trailer1 else c.trailer0) ++ [⟨.low, 4⟩])
    ∧ (∀ c : Cfg, DefaultShapes c →
        startMark c true = [⟨.high, 1⟩, ⟨.low, 1⟩] ∧ startMark c false = [⟨.high, 2⟩, ⟨.low, 2⟩]
          ∧ endSeq c false = [⟨.low, 4⟩, ⟨.high, 4⟩, ⟨.low, 4⟩]
          ∧ endSeq c true = [⟨.high, 4⟩, ⟨.low, 1⟩, ⟨.high, 1⟩, ⟨.low, 1⟩, ⟨.low, 4⟩]
          ∧ ∀ b : Byte, (levels (frame c b)).length =
            4 + (if b.getLsbD 7 then 2 else 4) + 32 + 4 + (if parity b then 3 else 4) + 4)

/-- R142, R146 to R149, R141: a symbol of the block, as an instruction of its own (log 13), drives its levels, one a tick, and
changes nothing but the pad, the time and the trace. -/
def Obligations.BlockSymbolsDriveTheirLevels : Prop :=
  ∀ s : State, cfgWf s.cfg = true →
    (∃ t, exec .mping s = .next t ∧ Drives (List.replicate 64 .high ++ [.low]) s t)
      ∧ (∃ t, exec .leadin s = .next t ∧ Drives (List.replicate 4 .low) s t)
      ∧ (∃ t, exec .guard s = .next t ∧ Drives (List.replicate 4 .low) s t)
      ∧ (∀ b : Bool, ∃ t, exec (.bit b) s = .next t ∧ Drives (List.replicate 4 (.ofBool b)) s t)
      ∧ (∀ p : Bool, ∃ t, exec (.paritySlot p) s = .next t ∧ Drives (List.replicate 4 (.ofBool p)) s t)
      ∧ (∃ t, exec .startMark1 s = .next t ∧ Drives (levels s.cfg.startMark1) s t)
      ∧ (∃ t, exec .startMark0 s = .next t ∧ Drives (levels s.cfg.startMark0) s t)
      ∧ (∃ t, exec .trailer1 s = .next t ∧ Drives (levels s.cfg.trailer1) s t)
      ∧ (∃ t, exec .trailer0 s = .next t ∧ Drives (levels s.cfg.trailer0) s t)

/-- R150, R89: a frame, as an instruction of its own (log 13), drives lead-in, start mark, bits 7 to 0, parity slot, trailer, guard;
an ill-formed frame drives the parity slot it names (log 28). -/
def Obligations.FramesDriveTheirLevels : Prop :=
  ∀ (s : State) (rest : BitVec 7) (b7 p : Bool), cfgWf s.cfg = true →
    ∃ t,
      (match b7, p with
        | true, false => exec (.frameB71P0 rest) s
        | true, true => exec (.frameB71P1 rest) s
        | false, false => exec (.frameB70P0 rest) s
        | false, true => exec (.frameB70P1 rest) s) = .next t
      ∧ Drives
        (List.replicate 4 .low ++ levels (if b7 then s.cfg.startMark1 else s.cfg.startMark0)
          ++ List.replicate 4 (.ofBool b7)
          ++ [6, 5, 4, 3, 2, 1, 0].flatMap (fun k => List.replicate 4 (Level.ofBool (rest.getLsbD k)))
          ++ List.replicate 4 (.ofBool p) ++ levels (if p then s.cfg.trailer1 else s.cfg.trailer0)
          ++ List.replicate 4 .low) s t

/-- R152 and R144: the receive window releases the line for 188 ticks and keeps everything else (log 13); one UI of the adapter's ping is
four ticks of HIGH on the line (log 14). -/
def Obligations.ReceiveWindowAndSlavePing : Prop :=
  ∀ s : State,
    (∃ t, exec .recvWindow s = .next t ∧ t.eng = { s.eng with dir := .input } ∧ t.tick = s.tick + 188
      ∧ t.cfg = s.cfg ∧ t.host = s.host ∧ t.bench = s.bench ∧ t.out = s.out
      ∧ t.env = { s.env with line := s.env.line.drop 188 }
      ∧ t.trace.length = s.trace.length + 188 ∧ t.trace.drop 188 = s.trace
      ∧ ∀ o ∈ t.trace.take 188, o.dir = .input ∧ o.dout = s.eng.dout ∧ o.switch = s.eng.switch ∧ o.out = s.out)
    ∧ exec .sping s = .next { s with env := { s.env with line := [.high, .high, .high, .high] ++ s.env.line } }

/-- R144: one UI of the adapter's ping is counted as exactly one HIGH sample, whatever its phase against the sample clock: in a quiet
environment the four ticks of a `SPING` symbol (as an instruction of its own the model's choice, log 14) add one to the width and
leave every other register as it was. -/
def Obligations.SlavePingCountsOneSample : Prop :=
  ∀ s : State, s.Inv → s.Quiet → s.eng.state = cSpingEnd ∨ s.eng.state = cRecvCfmSpingEnd →
    s.eng.timer.toNat ≤ 4 → s.eng.phaseCounter.toNat + 1 ≤ s.cfg.spingMaxUi →
    ∃ t u, exec .sping s = .next t ∧ runs 4 t = .next u
      ∧ u.eng = { s.eng with phaseCounter := s.eng.phaseCounter + 1 }

/-- R140: the parity of a byte is its number of 1 bits modulo 2, equally the XOR of its bits. -/
def Obligations.ParityIsPopcountAndXor : Prop :=
  ∀ b : Byte,
    (parity b = true ↔ (([0, 1, 2, 3, 4, 5, 6, 7].map fun k => (b.getLsbD k).toNat).sum) % 2 = 1)
      ∧ parity b = (b.getLsbD 7 ^^ b.getLsbD 6 ^^ b.getLsbD 5 ^^ b.getLsbD 4 ^^ b.getLsbD 3 ^^ b.getLsbD 2
          ^^ b.getLsbD 1 ^^ b.getLsbD 0)

/-- R151, R150: `decode_frame` reads back the byte of every frame, its parity slot, and whether that is the byte's parity, whatever
follows the frame on the wire. -/
def Obligations.FramesDecodeToTheirByte : Prop :=
  ∀ (c : Cfg) (b : Byte) (p : Bool) (v : List Level), DefaultShapes c →
    decodeFrame (levels (frameWith c b p) ++ v) = some ⟨b, p, p == parity b⟩

/-- R145: the handlers of a SPING reception, run on a list of samples, decide what `recv_sping` decides, with the width or the count
in `PHASE_COUNTER`; this holds for both receptions. -/
def Obligations.ReceptionRealisesRecvSping : Prop :=
  ∀ (s : State) (ls : List Level), cfgWf s.cfg = true → s.eng.dir = .input → s.eng.phaseCounter = 0 →
    s.eng.state = cSpingStart ∨ s.eng.state = cRecvCfmSpingStart →
    ∃ t, receive ls s = .next t
      ∧ match recvSping s.cfg ls with
        | .valid w => spingValid s.cfg w = true ∧ t.eng.phaseCounter.toNat = w
            ∧ t.eng.state = (if s.eng.state = cSpingStart then cRequestCtrl else cFinish)
        | .err k n => t.eng.state = cError ∧ t.eng.lastError = k ∧ t.eng.phaseCounter.toNat = n
            ∧ t.eng.errPhase = decide (s.eng.state = cRecvCfmSpingStart) ∧ t.out.event = .error
        | .undecided =>
            if s.eng.state = cSpingStart then t.eng.state = cSpingStart ∨ t.eng.state = cSpingEnd
            else t.eng.state = cRecvCfmSpingStart ∨ t.eng.state = cRecvCfmSpingEnd

/-! ## The tick -/

/-- R68, R200: a step runs the command presented in its tick, then the engine's step, then ends the tick; the controller is held
(log 17). -/
def Obligations.StepRunsThePresentedCommand : Prop :=
  ∀ (s : State) (w : BitVec 16) (rest : List HostItem) (i : Instr), s.Ready →
    s.env.script = .word w :: rest → decodeCmd w = some i →
    step s = andThen (exec i { s with host := controllerHold s.host, out := Out.none }) fun t =>
      andThen (engineTick t) fun u => .next (endTick (hostSee u))

/-- R112: where no command is presented and the handler of `STATE` is due, a step runs exactly that handler. -/
def Obligations.StepRunsTheDueHandler : Prop :=
  ∀ (s : State) (h : Instr), s.Ready → (hostPresent s.clearOut).1 = none → s.eng.busy = true → s.eng.timer.toNat ≤ 1 →
    decodeState s.eng.state = some h →
    step s = andThen (exec h { (hostPresent s.clearOut).2 with eng := { s.eng with timer := 0 } }) fun u =>
      .next (endTick (hostSee u))

/-- Log 15: a step plays the symbol at the bench if it may; after a symbol of the block's own the line is at the safe default. -/
def Obligations.StepPlaysTheBenchSymbol : Prop :=
  ∀ (s : State) (w : WireWord) (i : Instr), cfgWf s.cfg = true → s.rstNow = false → s.eng.codesLegal = true →
    s.bench = some w → decodeWire w = some i → w.slot = .slavePing ∨ s.eng.busy = false →
    step s = andThen (exec i { s with out := Out.none, bench := none }) fun t =>
      .next (if w.slot = .slavePing then t else { t with eng := { t.eng with dir := .output, dout := .low } })

/-- R112: the engine tick: nothing in a terminal state, a decrement while `TIMER` is above 1, else the handler of `STATE`. -/
def Obligations.EngineTickCountsDownThenRuns : Prop :=
  ∀ s : State,
    (s.eng.state = cIdle ∨ s.eng.state = cOk ∨ s.eng.state = cError → engineTick s = .next s)
      ∧ ∀ h : Instr, decodeState s.eng.state = some h →
        ¬(s.eng.state = cIdle ∨ s.eng.state = cOk ∨ s.eng.state = cError) →
        (2 ≤ s.eng.timer.toNat →
          engineTick s = .next { s with eng := { s.eng with timer := BitVec.ofNat 32 (s.eng.timer.toNat - 1) } })
        ∧ (s.eng.timer.toNat ≤ 1 → engineTick s = exec h { s with eng := { s.eng with timer := 0 } })

/-! ## Invariants and runs -/

/-- R41, R33: every step keeps the invariant. -/
def Obligations.StepKeepsTheInvariant : Prop :=
  ∀ s t : State, s.Inv → step s = .next t → t.Inv

/-- R41, R45: the invariant holds after reset, in every well-formed configuration and every environment. -/
def Obligations.ResetMeetsTheInvariant : Prop :=
  ∀ (c : Cfg) (env : Env), cfgWf c = true → { State.resetWith c with env := env : State }.Inv

/-- R41 (I-g), R132, R22: a run from reset never stops, in any well-formed configuration and any environment: no handler finds
the wrong direction or a pulse that does not exist, and no code is reached that names no state. -/
def Obligations.RunsFromResetNeverStop : Prop :=
  ∀ (c : Cfg) (env : Env) (k : Nat), cfgWf c = true →
    ∃ t, runs k { State.resetWith c with env := env } = .next t

/-- R41 (I-a) to (I-h), in every state of every run from reset; (I-g) says of every state whose handler samples or writes the line
that the direction is the one the primitive needs. -/
def Obligations.ReachableStatesMeetR41 : Prop :=
  ∀ (c : Cfg) (env : Env) (k : Nat) (t : State), cfgWf c = true →
    runs k { State.resetWith c with env := env } = .next t →
    t.eng.parity = decide (popcount t.eng.pendingByte % 2 = 1)
      ∧ t.eng.roundCount.toNat ≤ c.afcCommCnt
      ∧ (t.eng.busy = false → t.eng.timer = 0 ∧ t.eng.dir = .output ∧ t.eng.dout = .low)
      ∧ t.eng.state.toNat ≤ 21
      ∧ (t.eng.err = true ↔ t.eng.lastError ≠ 0) ∧ t.eng.lastError.toNat ≤ 3
      ∧ (t.eng.done = true → t.eng.state = cOk ∧ t.eng.roundCount.toNat = c.afcCommCnt)
      ∧ (t.eng.state ∈ [cSpingStart, cSpingEnd, cRecvCfmSpingStart, cRecvCfmSpingEnd] → t.eng.dir = .input)
      ∧ (t.eng.state ∈ [cMpingEnd, cStartTransfer, cSendData, cEndTransfer, cSendEndMping, cSendCfmMpingEnd] →
          t.eng.dir = .output)
      ∧ (t.eng.state = cError → t.eng.err = true)

/-- R33: in every state of every run from reset the counters keep the bounds of the rule, and the bounds fit their widths. For shapes
other than those of R141 and R147 the bounds on `PHASE_COUNTER` and `TIMER` rest on the conditions that the model puts on the shapes
(log 4). -/
def Obligations.CountersKeepTheirBounds : Prop :=
  ∀ (c : Cfg) (env : Env) (k : Nat) (t : State), cfgWf c = true →
    runs k { State.resetWith c with env := env } = .next t →
    t.eng.phaseCounter.toNat ≤ max (max c.waitSpingCount (c.spingMaxUi + 1)) 8
      ∧ max (max c.waitSpingCount (c.spingMaxUi + 1)) 8 ≤ 255
      ∧ t.eng.roundCount.toNat ≤ c.afcCommCnt ∧ c.afcCommCnt ≤ 255
      ∧ t.eng.timer.toNat ≤ max (roundGapTicks c) (max 64 184)
      ∧ max (roundGapTicks c) (max 64 184) < 2 ^ 32

/-- R293: no step changes the configuration, and there is no step in an ill-formed one. -/
def Obligations.ConfigurationIsConstant : Prop :=
  ∀ s t : State, step s = .next t → t.cfg = s.cfg ∧ cfgWf s.cfg = true

/-- R40, R133: while the block is busy no command but `DETACH` moves the pad. -/
def Obligations.BusyPadIsTheEngines : Prop :=
  ∀ (w : BitVec 16) (s t : State), s.eng.busy = true → w ≠ 0x5000 → runWord (some w) s = .next t →
    t.eng.dir = s.eng.dir ∧ t.eng.dout = s.eng.dout ∧ t.eng.busy = true

/-- R25, R72: while the block is busy the byte and its parity stand, unless `DETACH` or `rst` comes. -/
def Obligations.PendingByteStandsWhileBusy : Prop :=
  ∀ s t : State, s.eng.busy = true → s.rstNow = false → (hostPresent s.clearOut).1 ≠ some 0x5000 → step s = .next t →
    t.eng.pendingByte = s.eng.pendingByte ∧ t.eng.parity = s.eng.parity

/-- R112 (c), R70: a block that is not busy stays as it is for ever in a quiet environment, with no event. -/
def Obligations.QuiescentStaysQuiescent : Prop :=
  ∀ (s : State) (n : Nat), s.Ready → s.Quiet → s.eng.busy = false →
    ∃ t, runs (n + 1) s = .next t ∧ t.eng = s.eng ∧ t.out = Out.none

/-- R70, R206, R259 (a): from the tick of a `DETACH` on, in any state, the engine is in the reset state for ever, and the handler that
was due does not run: no event comes. -/
def Obligations.DetachQuiescesForEver : Prop :=
  ∀ (s : State) (n : Nat), s.Ready → s.env.script = [.word 0x5000] → s.env.rst = [] → s.host.phase = .idle →
    s.host.waiting = [] →
    ∃ t, runs (n + 1) s = .next t ∧ t.eng = Engine.reset ∧ t.out.event = .none

/-- R165: the states follow the pipeline: a tick without a due handler keeps `STATE`, a handler leads to one of its successors. -/
def Obligations.StatesFollowThePipeline : Prop :=
  ∀ s t : State, engineTick s = .next t →
    (2 ≤ s.eng.timer.toNat ∧ s.eng.busy = true → t.eng.state = s.eng.state)
      ∧ (s.eng.timer.toNat ≤ 1 ∨ s.eng.busy = false → t.eng.state ∈ successors s.eng.state)

/-- R36: the engine's step shows `done` exactly when its handler enters `OK`, and `error` exactly when its handler enters `ERROR`; no
command, `FORCEOK` and `DETACH` among them, makes an event. -/
def Obligations.EventExactlyAtTerminalEntry : Prop :=
  (∀ s t : State, s.out.event = .none → engineTick s = .next t →
    (t.out.event = .done ↔ s.eng.busy = true ∧ t.eng.state = cOk)
      ∧ (t.out.event = .error ↔ s.eng.busy = true ∧ t.eng.state = cError))
    ∧ ∀ (w : BitVec 16) (s t : State), runWord (some w) s = .next t → t.out.event = s.out.event

/-- R114: what a handler drives holds until the next handler: for fewer than `TIMER` ticks in a quiet environment only `TIMER`
changes. -/
def Obligations.DelaysHoldTheOutputs : Prop :=
  ∀ (s : State) (k : Nat), s.Ready → s.Quiet → s.eng.busy = true → k < s.eng.timer.toNat →
    ∃ t, runs k s = .next t
      ∧ t.eng = { s.eng with timer := BitVec.ofNat 32 (s.eng.timer.toNat - k) }

/-- R292: an accepted `START`, with no further command, is followed by exactly one event, at most
`AFC_COMM_CNT * RoundMax + (AFC_COMM_CNT - 1) * ROUND_GAP_TICKS` ticks later; `k` is that number of ticks. -/
def Obligations.HandshakeEndsInBoundedTime : Prop :=
  ∀ s : State, s.Inv → DefaultShapes s.cfg → s.eng.busy = false → s.env.script = [.word 0x4000] → s.env.rst = [] →
    s.bench = none → s.host.phase = .idle → s.host.waiting = [] →
    ∃ k, k ≤ handshakeMax s.cfg
      ∧ ∀ n, ∃ t, runs (n + 1) s = .next t ∧ (t.out.event ≠ .none ↔ n = k) ∧ (k ≤ n → t.eng.busy = false)

/-! ## Reset and refusals -/

/-- R45, R280: the reset state, and the tick of `rst`: the engine is in the reset state whatever it was, with no response, no step and no
event. That the host makes no report in that tick is the model's choice (log 9). -/
def Obligations.ResetGivesTheResetState : Prop :=
  Engine.reset = { state := 0, phaseCounter := 0, timer := 0, pendingByte := 0x00, parity := false, roundCount := 0,
                   lastError := 0, errPhase := false, dir := .output, dout := .low, switch := false, done := false,
                   err := false }
    ∧ pinState Engine.reset.dir = .active ∧ Engine.reset.busy = false
    ∧ (∀ c : Cfg, (State.resetWith c).eng = Engine.reset ∧ (State.resetWith c).out.event = .none)
    ∧ (∀ s t : State, exec .detach s = .next t → t.eng = Engine.reset)
    ∧ (∀ s : State, cfgWf s.cfg = true → s.rstNow = true →
        ∃ t, step s = .next t ∧ t.eng = Engine.reset ∧ t.out = Out.none ∧ t.cfg = s.cfg)

/-- R8, R293: a step is refused in an ill-formed configuration; well-formedness is the conjunction of R8 (on the parameters the
configuration holds) and of the conditions on the shapes (log 4). -/
def Obligations.IllFormedConfigurationIsRefused : Prop :=
  (∀ s : State, cfgWf s.cfg = false → step s = .refused .illFormedConfig)
    ∧ ∀ c : Cfg, cfgWf c = true ↔
      (0 < c.uiNs ∧ c.uiNs % 4 = 0) ∧ (1 ≤ c.waitSpingCount ∧ c.waitSpingCount ≤ 255)
        ∧ (1 ≤ c.spingMinUi ∧ c.spingMinUi ≤ c.spingMaxUi ∧ c.spingMaxUi ≤ 254)
        ∧ (1 ≤ c.afcCommCnt ∧ c.afcCommCnt ≤ 255)
        ∧ (1 ≤ roundGapTicks c ∧ roundGapTicks c < 2 ^ 32) ∧ 1 ≤ c.vbusRetryMax
        ∧ (c.startMark0.length = 2 ∧ c.startMark1.length = 2)
        ∧ (1 ≤ c.trailer0.length ∧ c.trailer0.length ≤ 7 ∧ 1 ≤ c.trailer1.length ∧ c.trailer1.length ≤ 7)
        ∧ ∀ p ∈ c.startMark0 ++ c.startMark1 ++ c.trailer0 ++ c.trailer1, 1 ≤ p.ticks ∧ p.ticks ≤ max (roundGapTicks c) (max 64 184)

/-! ## Independence -/

/-- R202, R62, R92: a tick with `NOP`, with an `RD` or with an illegal word is, for the engine, the event, the host and the inputs, the same
as a tick with no command. -/
def Obligations.ReadsAndNopsDisturbNothing : Prop :=
  ∀ (s t : State) (w : BitVec 16) (rest : List HostItem), s.bench = none → s.host.phase = .idle → s.host.waiting = [] →
    (decodeCmd w = none ∨ decodeCmd w = some .nop ∨ ∃ n, decodeCmd w = some (.rd n)) →
    step { s with env := { s.env with script := .word w :: rest } } = .next t →
    ∃ u, step { s with env := { s.env with script := .quiet :: rest } } = .next u
      ∧ u.eng = t.eng ∧ u.out.event = t.out.event ∧ u.host = t.host ∧ u.env = t.env

/-- R131: no handler depends on `SWITCH`: the engine's step with another `SWITCH` is the same step. -/
def Obligations.EngineIgnoresTheSwitch : Prop :=
  ∀ (s t : State) (b : Bool), engineTick s = .next t →
    engineTick { s with eng := { s.eng with switch := b } } = .next { t with eng := { t.eng with switch := b } }

/-- R125, R91, R152: while the block drives the line, and in the receive window, the engine's step does not depend on the line. -/
def Obligations.EngineIgnoresTheLineUnlessReceiving : Prop :=
  ∀ (s t : State) (l : List Level),
    s.eng.dir = .output ∨ s.eng.state = cRecvDataStart ∨ s.eng.state = cRecvDataEnd → engineTick s = .next t →
    engineTick { s with env := { s.env with line := l } } = .next { t with env := { t.env with line := l } }

/-! ## The host -/

/-- R221, R87, R222: the predicates on a VBUS reading, the control bytes, the results. -/
def Obligations.VbusPredicates : Prop :=
  (∀ v : Int, (cablePresent v = true ↔ 3500 < v) ∧ (inBand .v5 v = true ↔ v ≠ -1 ∧ v < 5500)
      ∧ (inBand .v9 v = true ↔ 7500 < v))
    ∧ ctrlByte .v5 = 0x08 ∧ ctrlByte .v9 = 0x46 ∧ success .v5 = .afc5v ∧ success .v9 = .afc9v

/-- R223: a repeated request whose voltage is still in band presents no command, reports nothing and leaves the block alone. -/
def Obligations.RepeatedRequestIsANoOp : Prop :=
  ∀ (s : State) (t : Target) (rest : List HostItem), s.env.script = .call [t] :: rest → s.host.phase = .idle →
    s.host.waiting = [] → s.host.achieved = some t → inBand t s.vbus = true →
    hostPresent s = (none, { s with host := { s.host with requestedVoltage := t }, out := { s.out with report := none } })

/-- R222 steps 1 to 4, R224, R232: a request that passes the guard presents `SWON` in its tick, `LOADB` after the settle wait, then
`START`, and then waits for the event. The model's choices: the ticks in which the host acts (log 20), no word in a tick in which it
waits (log 30), and that the first of the calls that wait is made and the others go on waiting (log 18). -/
def Obligations.RequestArmsLoadsAndStarts : Prop :=
  ∀ (c : Cfg) (v : Int) (h : Controller) (n : Nat),
    (∀ t ts, h.phase = .idle → h.waiting = t :: ts → ¬(h.achieved = some t ∧ inBand t v = true) →
      controllerMove c v h =
        ⟨some 0x1000, { h with requestedVoltage := t, phase := .load (switchSettleTicks c), waiting := ts }, none⟩)
    ∧ (h.phase = .load (n + 1) → controllerMove c v h = ⟨none, { h with phase := .load n }, none⟩)
    ∧ (h.phase = .load 0 → controllerMove c v h =
        ⟨some (0x3000 + (ctrlByte h.requestedVoltage).setWidth 16), { h with retryCount := 0, phase := .launch 0 }, none⟩)
    ∧ (h.phase = .launch (n + 1) → controllerMove c v h = ⟨none, { h with phase := .launch n }, none⟩)
    ∧ (h.phase = .launch 0 → controllerMove c v h = ⟨some 0x4000, { h with phase := .waitEvent }, none⟩)
    ∧ (h.phase = .waitEvent → controllerMove c v h = ⟨none, h, none⟩)

/-- R225, R226: what the host decides when a handshake ends: the cable first, then the budget; at exhaustion `FORCEOK` and the polls.
The ticks in which it acts are the model's choice (log 20). -/
def Obligations.RetryDecision : Prop :=
  ∀ (c : Cfg) (v : Int) (h : Controller), h.phase = .waitEvent →
    controllerSee c .none v h = h
      ∧ controllerSee c .done v h = { h with phase := .poll 1 0 }
      ∧ (¬ 3500 < v → controllerSee c .error v h = { h with phase := .report .afcFail })
      ∧ (3500 < v → h.retryCount = c.afcRetryMax → controllerSee c .error v h = { h with phase := .giveUp })
      ∧ (3500 < v → h.retryCount ≠ c.afcRetryMax →
        controllerSee c .error v h = { h with retryCount := h.retryCount + 1, phase := .launch (retryWaitTicks c) })
      ∧ ∀ g : Controller, g.phase = .giveUp →
        controllerMove c v g = ⟨some 0x6000, { g with phase := .poll 1 0 }, none⟩

/-- R227, R228, R222 steps 6 and 7, R229: the confirmation polls, the report with `DETACH`, and `detach()`, which reports nothing. The
model's choices: the ticks in which the host acts (log 20), no word in a tick in which it waits or polls and goes on (log 30), and
that `detach()` leaves the calls that wait (log 18). -/
def Obligations.PollsReportAndDetach : Prop :=
  (∀ (c : Cfg) (v : Int) (h : Controller) (k n : Nat),
    (h.phase = .poll k (n + 1) → controllerMove c v h = ⟨none, { h with phase := .poll k n }, none⟩)
      ∧ (h.phase = .poll k 0 → inBand h.requestedVoltage v = true →
        controllerMove c v h = ⟨some 0x5000,
          { h with result := some (success h.requestedVoltage), achieved := some h.requestedVoltage, phase := .idle },
          some (success h.requestedVoltage)⟩)
      ∧ (h.phase = .poll k 0 → inBand h.requestedVoltage v = false → k < c.vbusRetryMax →
        controllerMove c v h = ⟨none, { h with phase := .poll (k + 1) (vbusPollTicks c - 1) }, none⟩)
      ∧ (h.phase = .poll k 0 → inBand h.requestedVoltage v = false → c.vbusRetryMax ≤ k →
        controllerMove c v h = ⟨some 0x5000, { h with result := some .afcFail, achieved := none, phase := .idle },
          some .afcFail⟩)
      ∧ (h.phase = .report .afcFail →
        controllerMove c v h = ⟨some 0x5000, { h with result := some .afcFail, achieved := none, phase := .idle },
          some .afcFail⟩))
    ∧ ∀ (s : State) (rest : List HostItem), s.env.script = .detach :: rest →
      hostPresent s = (some 0x5000, { s with host := { s.host with phase := .idle, retryCount := 0, achieved := none } })
end

