-- ==== Sys2Proof/Laws/Decode.lean ====
section
/-! SUPPORT. The command words as numbers, and the words that decode. -/

namespace Sys2Proof

/-- A command word is its three fields (R81). -/
theorem cmdWord_toNat (w : BitVec 16) :
    w.toNat = (cmdOp w).toNat * 4096 + (cmdRsv w).toNat * 256 + (cmdImm w).toNat := by
  simp only [cmdOp, cmdRsv, cmdImm, BitVec.extractLsb'_toNat, Nat.shiftRight_eq_div_pow]
  omega

/-- The operand field is its two halves (R81). -/
theorem cmdImm_toNat (m : BitVec 8) :
    m.toNat = (m.extractLsb' 4 4).toNat * 16 + (m.extractLsb' 0 4).toNat := by
  have := m.isLt
  simp only [BitVec.extractLsb'_toNat, Nat.shiftRight_eq_div_pow]
  omega

theorem decodeNoOperand_eq_some {m : BitVec 8} {i j : Instr} :
    decodeNoOperand m i = some j ↔ m = 0 ∧ i = j := by simp [decodeNoOperand]

theorem decodeRd_eq_some {m : BitVec 8} {j : Instr} :
    decodeRd m = some j ↔ m.extractLsb' 4 4 = 0 ∧ .rd (m.extractLsb' 0 4) = j := by simp [decodeRd]

/-- The codes that name a handler are 0 to 21 (R84). -/
theorem decodeState_isSome_iff (c : BitVec 5) : (decodeState c).isSome = true ↔ c.toNat ≤ 21 := by
  revert c
  decide

/-- The 22 codes of R84. -/
theorem state_cases {c : BitVec 5} (h : c.toNat ≤ 21) :
    c = 0 ∨ c = 1 ∨ c = 2 ∨ c = 3 ∨ c = 4 ∨ c = 5 ∨ c = 6 ∨ c = 7 ∨ c = 8 ∨ c = 9 ∨ c = 10 ∨ c = 11 ∨ c = 12 ∨ c = 13
      ∨ c = 14 ∨ c = 15 ∨ c = 16 ∨ c = 17 ∨ c = 18 ∨ c = 19 ∨ c = 20 ∨ c = 21 := by
  revert c
  decide

end Sys2Proof
end

