-- ==== Sys2Proof/Laws/State.lean ====
section
/-! SUPPORT. One lemma per field per update of the registers and of the state, so that no proof unfolds a record update. -/

namespace Sys2Proof.Machine

/-! ## Registers -/

@[simp] theorem Engine.lineOutput_state (l : Level) (e : Engine) : (e.lineOutput l).state = e.state := rfl
@[simp] theorem Engine.lineOutput_phaseCounter (l : Level) (e : Engine) : (e.lineOutput l).phaseCounter = e.phaseCounter := rfl
@[simp] theorem Engine.lineOutput_timer (l : Level) (e : Engine) : (e.lineOutput l).timer = e.timer := rfl
@[simp] theorem Engine.lineOutput_pendingByte (l : Level) (e : Engine) : (e.lineOutput l).pendingByte = e.pendingByte := rfl
@[simp] theorem Engine.lineOutput_parity (l : Level) (e : Engine) : (e.lineOutput l).parity = e.parity := rfl
@[simp] theorem Engine.lineOutput_roundCount (l : Level) (e : Engine) : (e.lineOutput l).roundCount = e.roundCount := rfl
@[simp] theorem Engine.lineOutput_lastError (l : Level) (e : Engine) : (e.lineOutput l).lastError = e.lastError := rfl
@[simp] theorem Engine.lineOutput_errPhase (l : Level) (e : Engine) : (e.lineOutput l).errPhase = e.errPhase := rfl
@[simp] theorem Engine.lineOutput_dir (l : Level) (e : Engine) : (e.lineOutput l).dir = .output := rfl
@[simp] theorem Engine.lineOutput_dout (l : Level) (e : Engine) : (e.lineOutput l).dout = l := rfl
@[simp] theorem Engine.lineOutput_switch (l : Level) (e : Engine) : (e.lineOutput l).switch = e.switch := rfl
@[simp] theorem Engine.lineOutput_done (l : Level) (e : Engine) : (e.lineOutput l).done = e.done := rfl
@[simp] theorem Engine.lineOutput_err (l : Level) (e : Engine) : (e.lineOutput l).err = e.err := rfl

@[simp] theorem Engine.lineInput_state (e : Engine) : (e.lineInput).state = e.state := rfl
@[simp] theorem Engine.lineInput_phaseCounter (e : Engine) : (e.lineInput).phaseCounter = e.phaseCounter := rfl
@[simp] theorem Engine.lineInput_timer (e : Engine) : (e.lineInput).timer = e.timer := rfl
@[simp] theorem Engine.lineInput_pendingByte (e : Engine) : (e.lineInput).pendingByte = e.pendingByte := rfl
@[simp] theorem Engine.lineInput_parity (e : Engine) : (e.lineInput).parity = e.parity := rfl
@[simp] theorem Engine.lineInput_roundCount (e : Engine) : (e.lineInput).roundCount = e.roundCount := rfl
@[simp] theorem Engine.lineInput_lastError (e : Engine) : (e.lineInput).lastError = e.lastError := rfl
@[simp] theorem Engine.lineInput_errPhase (e : Engine) : (e.lineInput).errPhase = e.errPhase := rfl
@[simp] theorem Engine.lineInput_dir (e : Engine) : (e.lineInput).dir = .input := rfl
@[simp] theorem Engine.lineInput_dout (e : Engine) : (e.lineInput).dout = e.dout := rfl
@[simp] theorem Engine.lineInput_switch (e : Engine) : (e.lineInput).switch = e.switch := rfl
@[simp] theorem Engine.lineInput_done (e : Engine) : (e.lineInput).done = e.done := rfl
@[simp] theorem Engine.lineInput_err (e : Engine) : (e.lineInput).err = e.err := rfl

@[simp] theorem Engine.setPhase_state (v : BitVec 8) (e : Engine) : (e.setPhase v).state = e.state := rfl
@[simp] theorem Engine.setPhase_phaseCounter (v : BitVec 8) (e : Engine) : (e.setPhase v).phaseCounter = v := rfl
@[simp] theorem Engine.setPhase_timer (v : BitVec 8) (e : Engine) : (e.setPhase v).timer = e.timer := rfl
@[simp] theorem Engine.setPhase_pendingByte (v : BitVec 8) (e : Engine) : (e.setPhase v).pendingByte = e.pendingByte := rfl
@[simp] theorem Engine.setPhase_parity (v : BitVec 8) (e : Engine) : (e.setPhase v).parity = e.parity := rfl
@[simp] theorem Engine.setPhase_roundCount (v : BitVec 8) (e : Engine) : (e.setPhase v).roundCount = e.roundCount := rfl
@[simp] theorem Engine.setPhase_lastError (v : BitVec 8) (e : Engine) : (e.setPhase v).lastError = e.lastError := rfl
@[simp] theorem Engine.setPhase_errPhase (v : BitVec 8) (e : Engine) : (e.setPhase v).errPhase = e.errPhase := rfl
@[simp] theorem Engine.setPhase_dir (v : BitVec 8) (e : Engine) : (e.setPhase v).dir = e.dir := rfl
@[simp] theorem Engine.setPhase_dout (v : BitVec 8) (e : Engine) : (e.setPhase v).dout = e.dout := rfl
@[simp] theorem Engine.setPhase_switch (v : BitVec 8) (e : Engine) : (e.setPhase v).switch = e.switch := rfl
@[simp] theorem Engine.setPhase_done (v : BitVec 8) (e : Engine) : (e.setPhase v).done = e.done := rfl
@[simp] theorem Engine.setPhase_err (v : BitVec 8) (e : Engine) : (e.setPhase v).err = e.err := rfl

@[simp] theorem Engine.goTo_state (c : BitVec 5) (d : Nat) (e : Engine) : (e.goTo c d).state = c := rfl
@[simp] theorem Engine.goTo_phaseCounter (c : BitVec 5) (d : Nat) (e : Engine) : (e.goTo c d).phaseCounter = e.phaseCounter := rfl
@[simp] theorem Engine.goTo_timer (c : BitVec 5) (d : Nat) (e : Engine) : (e.goTo c d).timer = BitVec.ofNat 32 d := rfl
@[simp] theorem Engine.goTo_pendingByte (c : BitVec 5) (d : Nat) (e : Engine) : (e.goTo c d).pendingByte = e.pendingByte := rfl
@[simp] theorem Engine.goTo_parity (c : BitVec 5) (d : Nat) (e : Engine) : (e.goTo c d).parity = e.parity := rfl
@[simp] theorem Engine.goTo_roundCount (c : BitVec 5) (d : Nat) (e : Engine) : (e.goTo c d).roundCount = e.roundCount := rfl
@[simp] theorem Engine.goTo_lastError (c : BitVec 5) (d : Nat) (e : Engine) : (e.goTo c d).lastError = e.lastError := rfl
@[simp] theorem Engine.goTo_errPhase (c : BitVec 5) (d : Nat) (e : Engine) : (e.goTo c d).errPhase = e.errPhase := rfl
@[simp] theorem Engine.goTo_dir (c : BitVec 5) (d : Nat) (e : Engine) : (e.goTo c d).dir = e.dir := rfl
@[simp] theorem Engine.goTo_dout (c : BitVec 5) (d : Nat) (e : Engine) : (e.goTo c d).dout = e.dout := rfl
@[simp] theorem Engine.goTo_switch (c : BitVec 5) (d : Nat) (e : Engine) : (e.goTo c d).switch = e.switch := rfl
@[simp] theorem Engine.goTo_done (c : BitVec 5) (d : Nat) (e : Engine) : (e.goTo c d).done = e.done := rfl
@[simp] theorem Engine.goTo_err (c : BitVec 5) (d : Nat) (e : Engine) : (e.goTo c d).err = e.err := rfl

@[simp] theorem Engine.stay_state (d : Nat) (e : Engine) : (e.stay d).state = e.state := rfl
@[simp] theorem Engine.stay_phaseCounter (d : Nat) (e : Engine) : (e.stay d).phaseCounter = e.phaseCounter := rfl
@[simp] theorem Engine.stay_timer (d : Nat) (e : Engine) : (e.stay d).timer = BitVec.ofNat 32 d := rfl
@[simp] theorem Engine.stay_pendingByte (d : Nat) (e : Engine) : (e.stay d).pendingByte = e.pendingByte := rfl
@[simp] theorem Engine.stay_parity (d : Nat) (e : Engine) : (e.stay d).parity = e.parity := rfl
@[simp] theorem Engine.stay_roundCount (d : Nat) (e : Engine) : (e.stay d).roundCount = e.roundCount := rfl
@[simp] theorem Engine.stay_lastError (d : Nat) (e : Engine) : (e.stay d).lastError = e.lastError := rfl
@[simp] theorem Engine.stay_errPhase (d : Nat) (e : Engine) : (e.stay d).errPhase = e.errPhase := rfl
@[simp] theorem Engine.stay_dir (d : Nat) (e : Engine) : (e.stay d).dir = e.dir := rfl
@[simp] theorem Engine.stay_dout (d : Nat) (e : Engine) : (e.stay d).dout = e.dout := rfl
@[simp] theorem Engine.stay_switch (d : Nat) (e : Engine) : (e.stay d).switch = e.switch := rfl
@[simp] theorem Engine.stay_done (d : Nat) (e : Engine) : (e.stay d).done = e.done := rfl
@[simp] theorem Engine.stay_err (d : Nat) (e : Engine) : (e.stay d).err = e.err := rfl

@[simp] theorem Engine.enterError_state (k : BitVec 3) (p : Bool) (e : Engine) : (e.enterError k p).state = cError := rfl
@[simp] theorem Engine.enterError_phaseCounter (k : BitVec 3) (p : Bool) (e : Engine) : (e.enterError k p).phaseCounter = e.phaseCounter := rfl
@[simp] theorem Engine.enterError_timer (k : BitVec 3) (p : Bool) (e : Engine) : (e.enterError k p).timer = 0 := rfl
@[simp] theorem Engine.enterError_pendingByte (k : BitVec 3) (p : Bool) (e : Engine) : (e.enterError k p).pendingByte = e.pendingByte := rfl
@[simp] theorem Engine.enterError_parity (k : BitVec 3) (p : Bool) (e : Engine) : (e.enterError k p).parity = e.parity := rfl
@[simp] theorem Engine.enterError_roundCount (k : BitVec 3) (p : Bool) (e : Engine) : (e.enterError k p).roundCount = e.roundCount := rfl
@[simp] theorem Engine.enterError_lastError (k : BitVec 3) (p : Bool) (e : Engine) : (e.enterError k p).lastError = k := rfl
@[simp] theorem Engine.enterError_errPhase (k : BitVec 3) (p : Bool) (e : Engine) : (e.enterError k p).errPhase = p := rfl
@[simp] theorem Engine.enterError_dir (k : BitVec 3) (p : Bool) (e : Engine) : (e.enterError k p).dir = .output := rfl
@[simp] theorem Engine.enterError_dout (k : BitVec 3) (p : Bool) (e : Engine) : (e.enterError k p).dout = .low := rfl
@[simp] theorem Engine.enterError_switch (k : BitVec 3) (p : Bool) (e : Engine) : (e.enterError k p).switch = e.switch := rfl
@[simp] theorem Engine.enterError_done (k : BitVec 3) (p : Bool) (e : Engine) : (e.enterError k p).done = e.done := rfl
@[simp] theorem Engine.enterError_err (k : BitVec 3) (p : Bool) (e : Engine) : (e.enterError k p).err = errOf k := rfl

@[simp] theorem Engine.launch_state (e : Engine) : (e.launch).state = cMpingStart := rfl
@[simp] theorem Engine.launch_phaseCounter (e : Engine) : (e.launch).phaseCounter = 0 := rfl
@[simp] theorem Engine.launch_timer (e : Engine) : (e.launch).timer = 0 := rfl
@[simp] theorem Engine.launch_pendingByte (e : Engine) : (e.launch).pendingByte = e.pendingByte := rfl
@[simp] theorem Engine.launch_parity (e : Engine) : (e.launch).parity = e.parity := rfl
@[simp] theorem Engine.launch_roundCount (e : Engine) : (e.launch).roundCount = 0 := rfl
@[simp] theorem Engine.launch_lastError (e : Engine) : (e.launch).lastError = 0 := rfl
@[simp] theorem Engine.launch_errPhase (e : Engine) : (e.launch).errPhase = false := rfl
@[simp] theorem Engine.launch_dir (e : Engine) : (e.launch).dir = e.dir := rfl
@[simp] theorem Engine.launch_dout (e : Engine) : (e.launch).dout = e.dout := rfl
@[simp] theorem Engine.launch_switch (e : Engine) : (e.launch).switch = e.switch := rfl
@[simp] theorem Engine.launch_done (e : Engine) : (e.launch).done = false := rfl
@[simp] theorem Engine.launch_err (e : Engine) : (e.launch).err = false := rfl

@[simp] theorem Engine.forceOk_state (e : Engine) : (e.forceOk).state = cOk := rfl
@[simp] theorem Engine.forceOk_phaseCounter (e : Engine) : (e.forceOk).phaseCounter = e.phaseCounter := rfl
@[simp] theorem Engine.forceOk_timer (e : Engine) : (e.forceOk).timer = e.timer := rfl
@[simp] theorem Engine.forceOk_pendingByte (e : Engine) : (e.forceOk).pendingByte = e.pendingByte := rfl
@[simp] theorem Engine.forceOk_parity (e : Engine) : (e.forceOk).parity = e.parity := rfl
@[simp] theorem Engine.forceOk_roundCount (e : Engine) : (e.forceOk).roundCount = e.roundCount := rfl
@[simp] theorem Engine.forceOk_lastError (e : Engine) : (e.forceOk).lastError = e.lastError := rfl
@[simp] theorem Engine.forceOk_errPhase (e : Engine) : (e.forceOk).errPhase = e.errPhase := rfl
@[simp] theorem Engine.forceOk_dir (e : Engine) : (e.forceOk).dir = e.dir := rfl
@[simp] theorem Engine.forceOk_dout (e : Engine) : (e.forceOk).dout = e.dout := rfl
@[simp] theorem Engine.forceOk_switch (e : Engine) : (e.forceOk).switch = e.switch := rfl
@[simp] theorem Engine.forceOk_done (e : Engine) : (e.forceOk).done = e.done := rfl
@[simp] theorem Engine.forceOk_err (e : Engine) : (e.forceOk).err = e.err := rfl

@[simp] theorem Engine.detach_state (e : Engine) : (e.detach).state = cIdle := rfl
@[simp] theorem Engine.detach_phaseCounter (e : Engine) : (e.detach).phaseCounter = 0 := rfl
@[simp] theorem Engine.detach_timer (e : Engine) : (e.detach).timer = 0 := rfl
@[simp] theorem Engine.detach_pendingByte (e : Engine) : (e.detach).pendingByte = 0x00 := rfl
@[simp] theorem Engine.detach_parity (e : Engine) : (e.detach).parity = false := rfl
@[simp] theorem Engine.detach_roundCount (e : Engine) : (e.detach).roundCount = 0 := rfl
@[simp] theorem Engine.detach_lastError (e : Engine) : (e.detach).lastError = 0 := rfl
@[simp] theorem Engine.detach_errPhase (e : Engine) : (e.detach).errPhase = false := rfl
@[simp] theorem Engine.detach_dir (e : Engine) : (e.detach).dir = .output := rfl
@[simp] theorem Engine.detach_dout (e : Engine) : (e.detach).dout = .low := rfl
@[simp] theorem Engine.detach_switch (e : Engine) : (e.detach).switch = false := rfl
@[simp] theorem Engine.detach_done (e : Engine) : (e.detach).done = false := rfl
@[simp] theorem Engine.detach_err (e : Engine) : (e.detach).err = false := rfl

@[simp] theorem Engine.countRound_state (e : Engine) : (e.countRound).state = e.state := rfl
@[simp] theorem Engine.countRound_phaseCounter (e : Engine) : (e.countRound).phaseCounter = 0 := rfl
@[simp] theorem Engine.countRound_timer (e : Engine) : (e.countRound).timer = e.timer := rfl
@[simp] theorem Engine.countRound_pendingByte (e : Engine) : (e.countRound).pendingByte = e.pendingByte := rfl
@[simp] theorem Engine.countRound_parity (e : Engine) : (e.countRound).parity = e.parity := rfl
@[simp] theorem Engine.countRound_roundCount (e : Engine) : (e.countRound).roundCount = e.roundCount + 1 := rfl
@[simp] theorem Engine.countRound_lastError (e : Engine) : (e.countRound).lastError = e.lastError := rfl
@[simp] theorem Engine.countRound_errPhase (e : Engine) : (e.countRound).errPhase = e.errPhase := rfl
@[simp] theorem Engine.countRound_dir (e : Engine) : (e.countRound).dir = .output := rfl
@[simp] theorem Engine.countRound_dout (e : Engine) : (e.countRound).dout = .low := rfl
@[simp] theorem Engine.countRound_switch (e : Engine) : (e.countRound).switch = e.switch := rfl
@[simp] theorem Engine.countRound_done (e : Engine) : (e.countRound).done = e.done := rfl
@[simp] theorem Engine.countRound_err (e : Engine) : (e.countRound).err = e.err := rfl

/-! ## Fields of the state -/

@[simp] theorem State.mapEng_cfg (f : Engine → Engine) (s : State) : (s.mapEng f).cfg = s.cfg := rfl
@[simp] theorem State.mapEng_eng (f : Engine → Engine) (s : State) : (s.mapEng f).eng = f s.eng := rfl
@[simp] theorem State.mapEng_host (f : Engine → Engine) (s : State) : (s.mapEng f).host = s.host := rfl
@[simp] theorem State.mapEng_env (f : Engine → Engine) (s : State) : (s.mapEng f).env = s.env := rfl
@[simp] theorem State.mapEng_bench (f : Engine → Engine) (s : State) : (s.mapEng f).bench = s.bench := rfl
@[simp] theorem State.mapEng_tick (f : Engine → Engine) (s : State) : (s.mapEng f).tick = s.tick := rfl
@[simp] theorem State.mapEng_out (f : Engine → Engine) (s : State) : (s.mapEng f).out = s.out := rfl
@[simp] theorem State.mapEng_trace (f : Engine → Engine) (s : State) : (s.mapEng f).trace = s.trace := rfl

@[simp] theorem State.signal_cfg (ev : Event) (s : State) : (s.signal ev).cfg = s.cfg := rfl
@[simp] theorem State.signal_eng (ev : Event) (s : State) : (s.signal ev).eng = s.eng := rfl
@[simp] theorem State.signal_host (ev : Event) (s : State) : (s.signal ev).host = s.host := rfl
@[simp] theorem State.signal_env (ev : Event) (s : State) : (s.signal ev).env = s.env := rfl
@[simp] theorem State.signal_bench (ev : Event) (s : State) : (s.signal ev).bench = s.bench := rfl
@[simp] theorem State.signal_tick (ev : Event) (s : State) : (s.signal ev).tick = s.tick := rfl
@[simp] theorem State.signal_out (ev : Event) (s : State) : (s.signal ev).out = { s.out with event := ev } := rfl
@[simp] theorem State.signal_trace (ev : Event) (s : State) : (s.signal ev).trace = s.trace := rfl

@[simp] theorem State.respond_cfg (c : RespCode) (d : BitVec 32) (s : State) : (s.respond c d).cfg = s.cfg := rfl
@[simp] theorem State.respond_eng (c : RespCode) (d : BitVec 32) (s : State) : (s.respond c d).eng = s.eng := rfl
@[simp] theorem State.respond_host (c : RespCode) (d : BitVec 32) (s : State) : (s.respond c d).host = s.host := rfl
@[simp] theorem State.respond_env (c : RespCode) (d : BitVec 32) (s : State) : (s.respond c d).env = s.env := rfl
@[simp] theorem State.respond_bench (c : RespCode) (d : BitVec 32) (s : State) : (s.respond c d).bench = s.bench := rfl
@[simp] theorem State.respond_tick (c : RespCode) (d : BitVec 32) (s : State) : (s.respond c d).tick = s.tick := rfl
@[simp] theorem State.respond_out (c : RespCode) (d : BitVec 32) (s : State) : (s.respond c d).out = { s.out with resp := some ⟨c, d⟩ } := rfl
@[simp] theorem State.respond_trace (c : RespCode) (d : BitVec 32) (s : State) : (s.respond c d).trace = s.trace := rfl

@[simp] theorem raiseSpingError_cfg (k : BitVec 3) (p : Bool) (s : State) : (raiseSpingError k p s).cfg = s.cfg := rfl
@[simp] theorem raiseSpingError_eng (k : BitVec 3) (p : Bool) (s : State) : (raiseSpingError k p s).eng = s.eng.enterError k p := rfl
@[simp] theorem raiseSpingError_host (k : BitVec 3) (p : Bool) (s : State) : (raiseSpingError k p s).host = s.host := rfl
@[simp] theorem raiseSpingError_env (k : BitVec 3) (p : Bool) (s : State) : (raiseSpingError k p s).env = s.env := rfl
@[simp] theorem raiseSpingError_bench (k : BitVec 3) (p : Bool) (s : State) : (raiseSpingError k p s).bench = s.bench := rfl
@[simp] theorem raiseSpingError_tick (k : BitVec 3) (p : Bool) (s : State) : (raiseSpingError k p s).tick = s.tick := rfl
@[simp] theorem raiseSpingError_out (k : BitVec 3) (p : Bool) (s : State) : (raiseSpingError k p s).out = { s.out with event := .error } := rfl
@[simp] theorem raiseSpingError_trace (k : BitVec 3) (p : Bool) (s : State) : (raiseSpingError k p s).trace = s.trace := rfl

@[simp] theorem State.wireTick_cfg (s : State) : (s.wireTick).cfg = s.cfg := rfl
@[simp] theorem State.wireTick_eng (s : State) : (s.wireTick).eng = s.eng := rfl
@[simp] theorem State.wireTick_host (s : State) : (s.wireTick).host = s.host := rfl
@[simp] theorem State.wireTick_env (s : State) : (s.wireTick).env = { s.env with line := s.env.line.drop 1 } := rfl
@[simp] theorem State.wireTick_bench (s : State) : (s.wireTick).bench = s.bench := rfl
@[simp] theorem State.wireTick_tick (s : State) : (s.wireTick).tick = s.tick + 1 := rfl
@[simp] theorem State.wireTick_out (s : State) : (s.wireTick).out = s.out := rfl
@[simp] theorem State.wireTick_trace (s : State) : (s.wireTick).trace = s.observe :: s.trace := rfl

@[simp] theorem State.clearOut_cfg (s : State) : (s.clearOut).cfg = s.cfg := rfl
@[simp] theorem State.clearOut_eng (s : State) : (s.clearOut).eng = s.eng := rfl
@[simp] theorem State.clearOut_host (s : State) : (s.clearOut).host = s.host := rfl
@[simp] theorem State.clearOut_env (s : State) : (s.clearOut).env = s.env := rfl
@[simp] theorem State.clearOut_bench (s : State) : (s.clearOut).bench = s.bench := rfl
@[simp] theorem State.clearOut_tick (s : State) : (s.clearOut).tick = s.tick := rfl
@[simp] theorem State.clearOut_out (s : State) : (s.clearOut).out = Out.none := rfl
@[simp] theorem State.clearOut_trace (s : State) : (s.clearOut).trace = s.trace := rfl

@[simp] theorem State.applyMove_cfg (m : HostMove) (s : State) : (s.applyMove m).cfg = s.cfg := rfl
@[simp] theorem State.applyMove_eng (m : HostMove) (s : State) : (s.applyMove m).eng = s.eng := rfl
@[simp] theorem State.applyMove_host (m : HostMove) (s : State) : (s.applyMove m).host = m.host := rfl
@[simp] theorem State.applyMove_env (m : HostMove) (s : State) : (s.applyMove m).env = s.env := rfl
@[simp] theorem State.applyMove_bench (m : HostMove) (s : State) : (s.applyMove m).bench = s.bench := rfl
@[simp] theorem State.applyMove_tick (m : HostMove) (s : State) : (s.applyMove m).tick = s.tick := rfl
@[simp] theorem State.applyMove_out (m : HostMove) (s : State) : (s.applyMove m).out = { s.out with report := m.report } := rfl
@[simp] theorem State.applyMove_trace (m : HostMove) (s : State) : (s.applyMove m).trace = s.trace := rfl

@[simp] theorem hostSee_cfg (s : State) : (hostSee s).cfg = s.cfg := rfl
@[simp] theorem hostSee_eng (s : State) : (hostSee s).eng = s.eng := rfl
@[simp] theorem hostSee_host (s : State) : (hostSee s).host = controllerSee s.cfg s.out.event s.vbus s.host := rfl
@[simp] theorem hostSee_env (s : State) : (hostSee s).env = s.env := rfl
@[simp] theorem hostSee_bench (s : State) : (hostSee s).bench = s.bench := rfl
@[simp] theorem hostSee_tick (s : State) : (hostSee s).tick = s.tick := rfl
@[simp] theorem hostSee_out (s : State) : (hostSee s).out = s.out := rfl
@[simp] theorem hostSee_trace (s : State) : (hostSee s).trace = s.trace := rfl

@[simp] theorem State.dropInputs_cfg (s : State) : s.dropInputs.cfg = s.cfg := rfl
@[simp] theorem State.dropInputs_eng (s : State) : s.dropInputs.eng = s.eng := rfl
@[simp] theorem State.dropInputs_host (s : State) : s.dropInputs.host = s.host := rfl
@[simp] theorem State.dropInputs_bench (s : State) : s.dropInputs.bench = s.bench := rfl
@[simp] theorem State.dropInputs_tick (s : State) : s.dropInputs.tick = s.tick := rfl
@[simp] theorem State.dropInputs_out (s : State) : s.dropInputs.out = s.out := rfl
@[simp] theorem State.dropInputs_trace (s : State) : s.dropInputs.trace = s.trace := rfl
@[simp] theorem State.dropInputs_line (s : State) : s.dropInputs.env.line = s.env.line := rfl

@[simp] theorem endTick_cfg (s : State) : (endTick s).cfg = s.cfg := rfl
@[simp] theorem endTick_eng (s : State) : (endTick s).eng = s.eng := rfl
@[simp] theorem endTick_host (s : State) : (endTick s).host = s.host := rfl
@[simp] theorem endTick_bench (s : State) : (endTick s).bench = s.bench := rfl
@[simp] theorem endTick_out (s : State) : (endTick s).out = s.out := rfl
@[simp] theorem endTick_tick (s : State) : (endTick s).tick = s.tick + 1 := rfl

end Sys2Proof.Machine
end

