-- ==== Sys2Proof/Laws/Ops.lean ====
section
/-! SUPPORT. One lemma per shared operation that says all it can do. -/

namespace Sys2Proof.Machine

/-! ## Outcomes -/

@[simp] theorem andThen_next (s : State) (k : State → Outcome) : andThen (.next s) k = k s := rfl
@[simp] theorem andThen_fault (r : Fault) (k : State → Outcome) : andThen (.fault r) k = .fault r := rfl
@[simp] theorem andThen_refused (r : Refusal) (k : State → Outcome) : andThen (.refused r) k = .refused r := rfl

/-- A sequence answers a next state iff both its parts do. -/
theorem andThen_eq_next {o : Outcome} {k : State → Outcome} {t : State} :
    andThen o k = .next t ↔ ∃ u, o = .next u ∧ k u = .next t := by
  cases o <;> simp

/-! ## Flags -/

theorem busy_eq_false_iff (e : Engine) : e.busy = false ↔ e.state = cIdle ∨ e.state = cOk ∨ e.state = cError := by
  simp only [Engine.busy, busyCode, bne, Bool.and_eq_false_iff, Bool.not_eq_false', beq_iff_eq, or_assoc]

theorem busy_eq_true_iff (e : Engine) : e.busy = true ↔ e.state ≠ cIdle ∧ e.state ≠ cOk ∧ e.state ≠ cError := by
  rw [← not_iff_not, Bool.not_eq_true, busy_eq_false_iff]
  tauto

theorem parity_eq_decide (b : Byte) : parity b = decide (popcount b % 2 = 1) := rfl

theorem errOf_eq_true_iff (c : BitVec 3) : errOf c = true ↔ c ≠ 0 := by simp [errOf]

/-! ## Pad primitives -/

theorem lineWrite_of_output {s : State} (h : s.eng.dir = .output) (l : Level) (k : Engine → Engine) :
    lineWrite l k s = .next { s with eng := k { s.eng with dout := l } } := by simp [lineWrite, h]

theorem lineWrite_of_input {s : State} (h : s.eng.dir = .input) (l : Level) (k : Engine → Engine) :
    lineWrite l k s = .refused .lineWriteWhileInput := by simp [lineWrite, h]

/-- A `LineWrite` answers a next state only while the pad is an output. -/
theorem lineWrite_eq_next {s t : State} {l : Level} {k : Engine → Engine} :
    lineWrite l k s = .next t ↔ s.eng.dir = .output ∧ t = { s with eng := k { s.eng with dout := l } } := by
  unfold lineWrite
  cases h : s.eng.dir <;> simp [eq_comm]

theorem lineRead_of_input {s : State} (h : s.eng.dir = .input) (k : Level → Outcome) : lineRead k s = k s.lineIn := by
  simp [lineRead, h]

theorem lineRead_of_output {s : State} (h : s.eng.dir = .output) (k : Level → Outcome) :
    lineRead k s = .refused .lineReadWhileOutput := by simp [lineRead, h]

/-! ## Operands -/

theorem withPulse_of_some {s : State} {seq : List Pulse} {p : Pulse} (h : seq[s.eng.phaseCounter.toNat]? = some p)
    (k : Pulse → Outcome) : withPulse seq k s = k p := by simp [withPulse, h]

theorem withPulse_of_none {s : State} {seq : List Pulse} (h : seq.length ≤ s.eng.phaseCounter.toNat)
    (k : Pulse → Outcome) : withPulse seq k s = .fault .pulseIndexOutOfRange := by
  simp [withPulse, List.getElem?_eq_none h]

theorem withDataBit_of_le {s : State} (h : s.eng.phaseCounter.toNat ≤ 7) (k : Bool → Outcome) :
    withDataBit k s = k (s.eng.pendingByte.getLsbD (7 - s.eng.phaseCounter.toNat)) := by simp [withDataBit, h]

theorem withDataBit_of_lt {s : State} (h : 7 < s.eng.phaseCounter.toNat) (k : Bool → Outcome) :
    withDataBit k s = .fault .pulseIndexOutOfRange := by simp [withDataBit, Nat.not_le.2 h]

/-! ## Receptions -/

/-- A HIGH sample in the wait window: the measurement begins. -/
theorem spingWait_of_high {s : State} (h : s.eng.dir = .input) (hl : s.lineIn = .high) (m : BitVec 5) (p : Bool) :
    spingWait m p s = .next { s with eng := { s.eng with phaseCounter := 1, state := m, timer := 4 } } := by
  rw [spingWait, lineRead_of_input h, hl]
  rfl

/-- A LOW sample in the wait window: one more, or the timeout. -/
theorem spingWait_of_low {s : State} (h : s.eng.dir = .input) (hl : s.lineIn = .low) (m : BitVec 5) (p : Bool) :
    spingWait m p s =
      if s.cfg.waitSpingCount ≤ (s.eng.phaseCounter + 1).toNat then
        .next (raiseSpingError spingErr1 p { s with eng := { s.eng with phaseCounter := s.eng.phaseCounter + 1 } })
      else .next { s with eng := { s.eng with phaseCounter := s.eng.phaseCounter + 1, timer := 4 } } := by
  rw [spingWait, lineRead_of_input h, hl]
  rfl

/-- A HIGH sample of a SPING: one more, or too long. -/
theorem spingMeasure_of_high {s : State} (h : s.eng.dir = .input) (hl : s.lineIn = .high) (m : BitVec 5) (p : Bool) :
    spingMeasure m p s =
      if s.cfg.spingMaxUi < (s.eng.phaseCounter + 1).toNat then
        .next (raiseSpingError spingErr3 p { s with eng := { s.eng with phaseCounter := s.eng.phaseCounter + 1 } })
      else .next { s with eng := { s.eng with phaseCounter := s.eng.phaseCounter + 1, timer := 4 } } := by
  rw [spingMeasure, lineRead_of_input h, hl]
  rfl

/-- A LOW sample of a SPING: it is over, too short or valid. -/
theorem spingMeasure_of_low {s : State} (h : s.eng.dir = .input) (hl : s.lineIn = .low) (m : BitVec 5) (p : Bool) :
    spingMeasure m p s =
      if s.eng.phaseCounter.toNat < s.cfg.spingMinUi then .next (raiseSpingError spingErr2 p s)
      else .next { s with eng := { s.eng with state := m, timer := 4 } } := by
  rw [spingMeasure, lineRead_of_input h, hl]
  rfl

theorem spingWait_of_output {s : State} (h : s.eng.dir = .output) (m : BitVec 5) (p : Bool) :
    spingWait m p s = .refused .lineReadWhileOutput := lineRead_of_output h _

theorem spingMeasure_of_output {s : State} (h : s.eng.dir = .output) (m : BitVec 5) (p : Bool) :
    spingMeasure m p s = .refused .lineReadWhileOutput := lineRead_of_output h _

/-! ## Responses -/

theorem accept_eq (f : Engine → Engine) (s : State) :
    accept f s = .next { s with eng := f s.eng, out := { s.out with resp := some ⟨.ack, 0⟩ } } := rfl

theorem reject_eq (r : RespCode) (s : State) :
    reject r s = .next { s with out := { s.out with resp := some ⟨r, 0⟩ } } := rfl

/-! ## Pulses and levels -/

@[simp] theorem levels_nil : levels [] = [] := rfl
@[simp] theorem levels_cons (p : Pulse) (ps : List Pulse) :
    levels (p :: ps) = List.replicate p.ticks p.level ++ levels ps := rfl

theorem levels_append (p q : List Pulse) : levels (p ++ q) = levels p ++ levels q := by
  induction p with
  | nil => rfl
  | cons a p ih => simp [ih]

theorem levels_length (p : List Pulse) : (levels p).length = pulseTicks p := by
  induction p with
  | nil => rfl
  | cons a p ih => simp [ih, pulseTicks]

/-- While the pad is driven, `n` ticks on the wire show its level `n` times. -/
theorem holdTicks_of_output {s : State} (n : Nat) (h : s.eng.dir = .output) :
    holdTicks n s = { s with
      tick := s.tick + n
      env := { s.env with line := s.env.line.drop n }
      trace := List.replicate n ⟨.output, s.eng.dout, s.eng.switch, s.out, s.eng.dout⟩ ++ s.trace } := by
  induction n generalizing s with
  | zero => simp [holdTicks]
  | succ n ih =>
    have hw : s.wireTick.eng.dir = .output := h
    rw [holdTicks, ih hw]
    simp [State.wireTick, State.observe, State.wire, h, List.replicate_succ', Nat.add_assoc, Nat.add_comm 1]

/-- Ticks on the wire touch nothing but the time, the line's stream and the trace. -/
theorem holdTicks_frame (n : Nat) (s : State) :
    (holdTicks n s).cfg = s.cfg ∧ (holdTicks n s).eng = s.eng ∧ (holdTicks n s).host = s.host
      ∧ (holdTicks n s).bench = s.bench ∧ (holdTicks n s).out = s.out ∧ (holdTicks n s).tick = s.tick + n
      ∧ (holdTicks n s).env = { s.env with line := s.env.line.drop n } := by
  induction n generalizing s with
  | zero => simp [holdTicks]
  | succ n ih => simpa [holdTicks, State.wireTick, Nat.add_assoc, Nat.add_comm 1] using ih s.wireTick

end Sys2Proof.Machine
end

