-- ==== Sys2Proof/Laws/Tick.lean ====
section
/-! SUPPORT. What the parts of a tick do, and what they leave alone. -/

namespace Sys2Proof.Machine

/-! ## The engine's part -/

theorem countDown_of_rest {e : Engine} (h : e.busy = false) : e.countDown = e := by simp [Engine.countDown, h]

theorem countDown_of_le_one {e : Engine} (h : e.busy = true) (ht : e.timer.toNat ≤ 1) :
    e.countDown = { e with timer := 0 } := by
  obtain ⟨st, pc, tm, pb, par, rc, le, ep, d, l, sw, dn, er⟩ := e
  simp only [Engine.countDown, h, Bool.true_and, decide_eq_true_eq, ne_eq] at *
  split
  · have : tm = 1 := by bv_omega
    simp [this]
  · rename_i h0
    rw [not_not] at h0
    rw [h0]

theorem countDown_of_two_le {e : Engine} (h : e.busy = true) (ht : 2 ≤ e.timer.toNat) :
    e.countDown = { e with timer := BitVec.ofNat 32 (e.timer.toNat - 1) } := by
  have h0 : e.timer ≠ 0 := by intro h; rw [h] at ht; simp at ht
  have h1 : e.timer - 1 = BitVec.ofNat 32 (e.timer.toNat - 1) := by bv_omega
  simp only [Engine.countDown, h, Bool.true_and, decide_eq_true_eq, ne_eq, h0, not_false_eq_true, if_true, h1]

theorem due_of_rest {e : Engine} (h : e.busy = false) : e.due = true := by simp [Engine.due, h]

/-- A decrement that leaves a tick to wait leaves the handler waiting (R112). -/
theorem due_of_two_le {e : Engine} (h : e.busy = true) (ht : 2 ≤ e.timer.toNat) : e.countDown.due = false := by
  rw [countDown_of_two_le h ht]
  have : BitVec.ofNat 32 (e.timer.toNat - 1) ≠ 0 := by bv_omega
  simp only [Engine.due, Engine.busy, this, decide_false, Bool.or_false, Bool.not_eq_false']
  exact h

@[simp] theorem countDown_state (e : Engine) : e.countDown.state = e.state := by
  unfold Engine.countDown
  split <;> rfl

/-- The engine's step by the handler its code names. -/
theorem engineTick_eq {s : State} {i : Instr} (hi : decodeState s.eng.state = some i) :
    engineTick s =
      if s.eng.countDown.due = true then exec i { s with eng := s.eng.countDown }
      else .next { s with eng := s.eng.countDown } := by
  have h : decodeState (s.mapEng Engine.countDown).eng.state = some i := by rw [← hi, State.mapEng, countDown_state]
  unfold engineTick
  dsimp only
  rw [h]
  rfl

/-- No code that names no handler has an engine's step. -/
theorem engineTick_of_none {s : State} (hi : decodeState s.eng.state = none) : engineTick s = .refused .unreachableCode := by
  have h : decodeState (s.mapEng Engine.countDown).eng.state = none := by rw [← hi, State.mapEng, countDown_state]
  unfold engineTick
  dsimp only
  rw [h]

/-- A handler that ran ran on the registers with `TIMER` counted down to 0. -/
theorem due_of_le_one {e : Engine} (h : e.busy = true) (ht : e.timer.toNat ≤ 1) : e.countDown.due = true := by
  rw [countDown_of_le_one h ht]
  simp [Engine.due]

/-! ## The host's part -/

/-- The host's part of a tick touches the controller and its report, nothing else. -/
theorem hostPresent_frame (s : State) :
    (hostPresent s).2.eng = s.eng ∧ (hostPresent s).2.cfg = s.cfg ∧ (hostPresent s).2.env = s.env
      ∧ (hostPresent s).2.bench = s.bench ∧ (hostPresent s).2.tick = s.tick ∧ (hostPresent s).2.trace = s.trace
      ∧ (hostPresent s).2.out.event = s.out.event ∧ (hostPresent s).2.out.resp = s.out.resp := by
  unfold hostPresent
  cases s.hostItem <;> simp [State.applyMove]

/-- A word in the host's stream is the word at the port, and the controller is held (log 17). -/
theorem hostPresent_of_word {s : State} {w : BitVec 16} {rest : List HostItem} (h : s.env.script = .word w :: rest) :
    hostPresent s = (some w, { s with host := controllerHold s.host }) := by
  simp [hostPresent, State.hostItem, h]

/-! ## The step -/

/-- A step that is ready for the tick proper is an ordinary tick. -/
theorem step_of_ready {s : State} (hc : cfgWf s.cfg = true) (hr : s.rstNow = false) (hl : s.eng.codesLegal = true)
    (hb : s.bench = none) : step s = ordinaryTick s := by
  simp [step, tickStep, refuseIllFormed, liveTick, hc, hr, hl, hb]

/-- A step with `rst` asserted is a reset tick. -/
theorem step_of_rst {s : State} (hc : cfgWf s.cfg = true) (hr : s.rstNow = true) : step s = .next (resetTick s) := by
  simp [step, tickStep, refuseIllFormed, hc, hr]

/-- Everything a step can do if it answers a next state: a reset tick, an ordinary tick, or a bench symbol. -/
theorem step_eq_next {s t : State} (h : step s = .next t) :
    cfgWf s.cfg = true
      ∧ ((s.rstNow = true ∧ t = resetTick s)
        ∨ (s.rstNow = false ∧ s.eng.codesLegal = true
          ∧ (((s.bench = none ∨ ∃ w, s.bench = some w ∧ benchReady w s = false) ∧ ordinaryTick s = .next t)
            ∨ ∃ w, s.bench = some w ∧ benchReady w s = true ∧ benchStep w s = .next t))) := by
  have hc : cfgWf s.cfg = true := by
    by_contra hc
    simp only [Bool.not_eq_true] at hc
    cases hr : s.rstNow <;> simp [step, tickStep, refuseIllFormed, hr, hc] at h
  refine ⟨hc, ?_⟩
  cases hr : s.rstNow with
  | true => exact .inl ⟨rfl, by simpa [step_of_rst hc hr] using h.symm⟩
  | false =>
    simp only [step, tickStep, refuseIllFormed, hr, hc, Bool.true_eq_false, if_false, liveTick] at h
    cases hl : s.eng.codesLegal with
    | false => simp [hl] at h
    | true =>
      simp only [hl, Bool.true_eq_false, if_false] at h
      refine .inr ⟨rfl, rfl, ?_⟩
      cases hb : s.bench with
      | none => exact .inl ⟨.inl rfl, by simpa [hb] using h⟩
      | some w =>
        simp only [hb] at h
        cases hw : benchReady w s with
        | true => exact .inr ⟨w, rfl, hw, by simpa [hw] using h⟩
        | false => exact .inl ⟨.inr ⟨w, rfl, hw⟩, by simpa [hw] using h⟩

/-- An ordinary tick that answers a next state runs through its parts. -/
theorem ordinaryTick_eq_next {s t : State} :
    ordinaryTick s = .next t ↔ ∃ u v, runWord (hostPresent s.clearOut).1 (hostPresent s.clearOut).2 = .next u
      ∧ engineTick u = .next v ∧ t = endTick (hostSee v) := by
  simp only [ordinaryTick, andThen_eq_next]
  constructor
  · rintro ⟨u, hu, v, hv, h⟩
    exact ⟨u, v, hu, hv, (Host.Outcome.next.inj h).symm⟩
  · rintro ⟨u, v, hu, hv, rfl⟩
    exact ⟨u, hu, v, hv, rfl⟩

end Sys2Proof.Machine
end

