-- ==== Sys2Proof/Laws/Frames.lean ====
section
/-! SUPPORT. What an instruction leaves alone: the frames of the commands, the handlers, the symbols and of a tick's parts. -/

namespace Sys2Proof.Machine

/-- The frame of a handler: the engine and the event apart, everything is kept. -/
def HandlerFrame (s t : State) : Prop := t = { s with eng := t.eng, out := { s.out with event := t.out.event } }

/-- The frame of a command: the engine and the response apart, everything is kept. -/
def CommandFrame (s t : State) : Prop := t = { s with eng := t.eng, out := { s.out with resp := t.out.resp } }

theorem HandlerFrame.refl (s : State) : HandlerFrame s s := rfl

theorem HandlerFrame.mapEng (f : Engine → Engine) (s : State) : HandlerFrame s (s.mapEng f) := rfl

theorem lineWrite_frame {s t : State} {l : Level} {k : Engine → Engine} (h : lineWrite l k s = .next t) :
    HandlerFrame s t := by
  obtain ⟨-, rfl⟩ := lineWrite_eq_next.1 h
  rfl

theorem spingWait_frame {s t : State} {m : BitVec 5} {p : Bool} (h : spingWait m p s = .next t) : HandlerFrame s t := by
  cases hd : s.eng.dir with
  | output => rw [spingWait_of_output hd] at h; cases h
  | input =>
    cases hl : s.lineIn with
    | high => rw [spingWait_of_high hd hl] at h; cases h; rfl
    | low => rw [spingWait_of_low hd hl] at h; split at h <;> cases h <;> rfl

theorem spingMeasure_frame {s t : State} {m : BitVec 5} {p : Bool} (h : spingMeasure m p s = .next t) :
    HandlerFrame s t := by
  cases hd : s.eng.dir with
  | output => rw [spingMeasure_of_output hd] at h; cases h
  | input =>
    cases hl : s.lineIn with
    | high => rw [spingMeasure_of_high hd hl] at h; split at h <;> cases h <;> rfl
    | low => rw [spingMeasure_of_low hd hl] at h; split at h <;> cases h <;> rfl

/-- A handler touches the engine and the event, nothing else. -/
theorem handler_frame {c : BitVec 5} {i : Instr} {s t : State} (hi : decodeState c = some i) (h : exec i s = .next t) :
    HandlerFrame s t := by
  unfold decodeState at hi
  split at hi <;> cases hi <;> simp only [exec] at h
  all_goals first
    | (cases h; rfl)
    | exact lineWrite_frame h
    | exact spingWait_frame h
    | exact spingMeasure_frame h
    | skip
  · unfold execStartTransfer withPulse at h
    split at h
    · exact lineWrite_frame h
    · cases h
  · unfold execSendData withDataBit at h
    split at h
    · exact lineWrite_frame h
    · cases h
  · unfold execEndTransfer withPulse at h
    split at h
    · exact lineWrite_frame h
    · cases h
  · unfold execSendEndMping at h
    split at h <;> exact lineWrite_frame h
  · unfold execFinish at h
    dsimp only at h
    split at h <;> cases h <;> rfl

/-- A word at the command port touches the engine and the response, nothing else, and always answers. -/
theorem runWord_frame (w : Option (BitVec 16)) (s : State) : ∃ t, runWord w s = .next t ∧ CommandFrame s t := by
  unfold runWord
  split
  · exact ⟨s, rfl, rfl⟩
  · rename_i w
    split
    · exact ⟨_, rfl, rfl⟩
    · rename_i i hi
      unfold decodeCmd at hi
      split at hi <;> [skip; cases hi]
      unfold decodeCmdFields at hi
      split at hi
      all_goals first
        | (obtain ⟨-, rfl⟩ := decodeNoOperand_eq_some.1 hi)
        | (obtain ⟨-, rfl⟩ := decodeRd_eq_some.1 hi)
        | cases hi
      all_goals simp only [exec]
      · exact ⟨_, rfl, rfl⟩
      · exact ⟨_, rfl, rfl⟩
      · exact ⟨_, rfl, rfl⟩
      · unfold execLoadb; split <;> exact ⟨_, rfl, rfl⟩
      · unfold execStart; split <;> exact ⟨_, rfl, rfl⟩
      · exact ⟨_, rfl, rfl⟩
      · unfold execForceok; split <;> exact ⟨_, rfl, rfl⟩
      · unfold execRd; split <;> exact ⟨_, rfl, rfl⟩

/-- The engine's step touches the engine and the event, nothing else. -/
theorem engineTick_frame {s t : State} (h : engineTick s = .next t) : HandlerFrame s t := by
  unfold engineTick at h
  dsimp only at h
  split at h
  · cases h
  · rename_i i hi
    split at h
    · exact show HandlerFrame (s.mapEng Engine.countDown) t from handler_frame hi h
    · cases h; rfl

/-- A pulse sequence on the wire touches the pad, the time, the line's stream and the trace, nothing else. -/
theorem playPulses_frame (p : List Pulse) (s : State) :
    (playPulses p s).cfg = s.cfg ∧ (playPulses p s).host = s.host ∧ (playPulses p s).bench = s.bench
      ∧ (playPulses p s).out = s.out
      ∧ (playPulses p s).eng = { s.eng with dir := (playPulses p s).eng.dir, dout := (playPulses p s).eng.dout } := by
  induction p generalizing s with
  | nil => exact ⟨rfl, rfl, rfl, rfl, rfl⟩
  | cons a p ih =>
    obtain ⟨h1, h2, h3, h4, h5⟩ := ih (holdTicks a.ticks (s.mapEng (·.lineOutput a.level)))
    obtain ⟨f1, f2, f3, f4, f5, -, -⟩ := holdTicks_frame a.ticks (s.mapEng (·.lineOutput a.level))
    refine ⟨h1.trans f1, h2.trans f3, h3.trans f4, h4.trans f5, ?_⟩
    rw [f2] at h5
    exact h5

/-- A wire symbol leaves the configuration, the host, the bench and the outputs alone, and of the engine all but the pad. -/
theorem symbol_frame {w : WireWord} {i : Instr} {s t : State} (hi : decodeWire w = some i) (h : exec i s = .next t) :
    t.cfg = s.cfg ∧ t.host = s.host ∧ t.bench = s.bench ∧ t.out = s.out
      ∧ t.eng = { s.eng with dir := t.eng.dir, dout := t.eng.dout } := by
  have key : (∃ p, t = playPulses p s) ∨ (∃ n, t = releaseFor n s) ∨ t.cfg = s.cfg ∧ t.host = s.host
      ∧ t.bench = s.bench ∧ t.out = s.out ∧ t.eng = s.eng := by
    unfold decodeWire at hi
    split at hi
    all_goals try (unfold decodeSlot at hi)
    all_goals try (unfold decodeFrameWord at hi)
    all_goals repeat' (split at hi)
    all_goals cases hi
    all_goals try (unfold frameInstr at h; split at h)
    all_goals simp only [exec, execMping, execSping, execLeadin, execStartMark1, execStartMark0, execBit, execParitySlot,
      execTrailer0, execTrailer1, execGuard, execRecvWindow, execFrameB71P0, execFrameB71P1, execFrameB70P0,
      execFrameB70P1] at h
    all_goals have h := Host.Outcome.next.inj h
    all_goals subst h
    all_goals first
      | exact .inl ⟨_, by with_reducible rfl⟩
      | exact .inr (.inl ⟨_, by with_reducible rfl⟩)
      | exact .inr (.inr ⟨rfl, rfl, rfl, rfl, rfl⟩)
  rcases key with ⟨p, rfl⟩ | ⟨n, rfl⟩ | ⟨h1, h2, h3, h4, h5⟩
  · exact playPulses_frame p s
  · obtain ⟨f1, f2, f3, f4, f5, -, -⟩ := holdTicks_frame n (s.mapEng (·.lineInput))
    exact ⟨f1, f3, f4, f5, by rw [releaseFor, f2]; rfl⟩
  · exact ⟨h1, h2, h3, h4, by rw [h5]⟩

end Sys2Proof.Machine
end

