-- ==== Sys2Proof/Laws/Params.lean ====
section
/-! SUPPORT. The fixed parameters as numerals, and what a well-formed configuration gives. -/

namespace Sys2Proof.Machine

@[simp] theorem uiTicks_eq : uiTicks = 4 := rfl
@[simp] theorem mpingTicks_eq : mpingTicks = 64 := rfl
@[simp] theorem recvDataTicks_eq : recvDataTicks = 184 := rfl
@[simp] theorem tRelease_eq : tRelease = 1 := rfl
@[simp] theorem tFirstPoll_eq : tFirstPoll = 4 := rfl
@[simp] theorem tPoll_eq : tPoll = 4 := rfl
@[simp] theorem tTurn_eq : tTurn = 4 := rfl
@[simp] theorem tLeadin_eq : tLeadin = 4 := rfl
@[simp] theorem tGuard_eq : tGuard = 4 := rfl
@[simp] theorem tWaitData_eq : tWaitData = 4 := rfl
@[simp] theorem tSettle_eq : tSettle = 4 := rfl

/-- The bounds of R8 that the engine's registers rest on. -/
theorem cfgWf_bounds {c : Cfg} (h : cfgWf c = true) :
    1 ≤ c.waitSpingCount ∧ c.waitSpingCount ≤ 255 ∧ 1 ≤ c.spingMinUi ∧ c.spingMinUi ≤ c.spingMaxUi ∧ c.spingMaxUi ≤ 254
      ∧ 1 ≤ c.afcCommCnt ∧ c.afcCommCnt ≤ 255 ∧ 1 ≤ roundGapTicks c ∧ roundGapTicks c < 2 ^ 32 := by
  simp only [cfgWf, Bool.and_eq_true, decide_eq_true_eq] at h
  tauto

/-- The shapes of a well-formed configuration (log 4). -/
theorem cfgWf_shapes {c : Cfg} (h : cfgWf c = true) :
    startMarkOk c c.startMark0 = true ∧ startMarkOk c c.startMark1 = true ∧ trailerOk c c.trailer0 = true
      ∧ trailerOk c c.trailer1 = true := by
  simp only [cfgWf, Bool.and_eq_true] at h
  tauto

/-- The delays of R7 are within the bound on `TIMER` (R33). -/
theorem recvDataTicks_le_timerMax (c : Cfg) : 184 ≤ timerMax c :=
  (le_max_right mpingTicks recvDataTicks).trans (le_max_right _ _)

theorem roundGapTicks_le_timerMax (c : Cfg) : roundGapTicks c ≤ timerMax c := le_max_left _ _

/-- The bound on `TIMER` fits its width (R33). -/
theorem timerMax_lt {c : Cfg} (h : cfgWf c = true) : timerMax c < 2 ^ 32 := by
  have := (cfgWf_bounds h).2.2.2.2.2.2.2.2
  simp only [timerMax, mpingTicks_eq, recvDataTicks_eq]
  omega

/-- A pulse the engine may play: at least a tick, and within `TIMER`'s width and bound. -/
def PulseFits (c : Cfg) (p : Pulse) : Prop := 1 ≤ p.ticks ∧ p.ticks < 2 ^ 32 ∧ p.ticks ≤ timerMax c

theorem pulseFits_of_ok {c : Cfg} {p : Pulse} (h : cfgWf c = true) (hp : pulseOk c p = true) : PulseFits c p := by
  simp only [pulseOk, Bool.and_eq_true, decide_eq_true_eq] at hp
  exact ⟨hp.1, hp.2.trans_lt (timerMax_lt h), hp.2⟩

/-- The start mark of a well-formed configuration has two pulses that `TIMER` holds (R174). -/
theorem startMark_fits {c : Cfg} (h : cfgWf c = true) (b : Bool) :
    (startMark c b).length = 2 ∧ ∀ p ∈ startMark c b, PulseFits c p := by
  obtain ⟨h0, h1, -, -⟩ := cfgWf_shapes h
  have key : startMarkOk c (startMark c b) = true := by cases b <;> assumption
  simp only [startMarkOk, Bool.and_eq_true, decide_eq_true_eq, List.all_eq_true] at key
  exact ⟨key.1, fun p hp => pulseFits_of_ok h (key.2 p hp)⟩

/-- The end sequence of a well-formed configuration has 3 to 9 pulses that `TIMER` holds (R149, R176). -/
theorem endSeq_fits {c : Cfg} (h : cfgWf c = true) (b : Bool) :
    3 ≤ (endSeq c b).length ∧ (endSeq c b).length ≤ 9 ∧ ∀ p ∈ endSeq c b, PulseFits c p := by
  obtain ⟨-, -, h0, h1⟩ := cfgWf_shapes h
  have key : trailerOk c (trailerPulses c b) = true := by cases b <;> assumption
  simp only [trailerOk, Bool.and_eq_true, decide_eq_true_eq, List.all_eq_true] at key
  obtain ⟨⟨l1, l7⟩, hf⟩ := key
  have h4 : ∀ l : Level, PulseFits c ⟨l, 4⟩ := fun l =>
    ⟨by simp, by simp, le_trans (by simp) (recvDataTicks_le_timerMax c)⟩
  have hlen : (endSeq c b).length = (trailerPulses c b).length + 2 := by
    simp only [endSeq, paritySlotPulses, guardPulses, List.length_append, List.length_singleton]
    omega
  refine ⟨by omega, by omega, fun p hp => ?_⟩
  simp only [endSeq, paritySlotPulses, guardPulses, List.mem_append, List.mem_singleton] at hp
  rcases hp with (rfl | hp) | rfl
  · exact h4 _
  · exact pulseFits_of_ok h (hf p hp)
  · exact h4 _

end Sys2Proof.Machine
end

