-- ==== Sys2Proof/Laws/PerInstr.lean ====
section
/-! SUPPORT. Per instruction: its word decodes to it (R82, R84, R88, R89, R96). -/

set_option maxRecDepth 20000

/-- The word of a well-formed instruction decodes to it. -/
def Sys2Proof.Laws.RoundTrip.Statement (i : Sys2Proof.Instr) : Prop :=
  i.wf = true → Sys2Proof.decode (Sys2Proof.encode i) = some i

namespace Sys2Proof.Laws

theorem RoundTrip.nop : RoundTrip.Statement .nop := fun _ => by decide
theorem RoundTrip.swon : RoundTrip.Statement .swon := fun _ => by decide
theorem RoundTrip.swoff : RoundTrip.Statement .swoff := fun _ => by decide
theorem RoundTrip.loadb (imm : Byte) : RoundTrip.Statement (.loadb imm) := by
  unfold RoundTrip.Statement
  revert imm
  decide
theorem RoundTrip.start : RoundTrip.Statement .start := fun _ => by decide
theorem RoundTrip.detach : RoundTrip.Statement .detach := fun _ => by decide
theorem RoundTrip.forceok : RoundTrip.Statement .forceok := fun _ => by decide
theorem RoundTrip.rd (n : BitVec 4) : RoundTrip.Statement (.rd n) := by
  unfold RoundTrip.Statement
  revert n
  decide
theorem RoundTrip.idle : RoundTrip.Statement .idle := fun _ => by decide
theorem RoundTrip.mpingStart : RoundTrip.Statement .mpingStart := fun _ => by decide
theorem RoundTrip.mpingEnd : RoundTrip.Statement .mpingEnd := fun _ => by decide
theorem RoundTrip.waitSping : RoundTrip.Statement .waitSping := fun _ => by decide
theorem RoundTrip.spingStart : RoundTrip.Statement .spingStart := fun _ => by decide
theorem RoundTrip.spingEnd : RoundTrip.Statement .spingEnd := fun _ => by decide
theorem RoundTrip.requestCtrl : RoundTrip.Statement .requestCtrl := fun _ => by decide
theorem RoundTrip.startTransfer : RoundTrip.Statement .startTransfer := fun _ => by decide
theorem RoundTrip.sendData : RoundTrip.Statement .sendData := fun _ => by decide
theorem RoundTrip.endTransfer : RoundTrip.Statement .endTransfer := fun _ => by decide
theorem RoundTrip.sendEndMping : RoundTrip.Statement .sendEndMping := fun _ => by decide
theorem RoundTrip.waitData : RoundTrip.Statement .waitData := fun _ => by decide
theorem RoundTrip.recvDataStart : RoundTrip.Statement .recvDataStart := fun _ => by decide
theorem RoundTrip.recvDataEnd : RoundTrip.Statement .recvDataEnd := fun _ => by decide
theorem RoundTrip.sendCfmMpingStart : RoundTrip.Statement .sendCfmMpingStart := fun _ => by decide
theorem RoundTrip.sendCfmMpingEnd : RoundTrip.Statement .sendCfmMpingEnd := fun _ => by decide
theorem RoundTrip.waitCfmSping : RoundTrip.Statement .waitCfmSping := fun _ => by decide
theorem RoundTrip.recvCfmSpingStart : RoundTrip.Statement .recvCfmSpingStart := fun _ => by decide
theorem RoundTrip.recvCfmSpingEnd : RoundTrip.Statement .recvCfmSpingEnd := fun _ => by decide
theorem RoundTrip.finish : RoundTrip.Statement .finish := fun _ => by decide
theorem RoundTrip.ok : RoundTrip.Statement .ok := fun _ => by decide
theorem RoundTrip.error : RoundTrip.Statement .error := fun _ => by decide
theorem RoundTrip.mping : RoundTrip.Statement .mping := fun _ => by decide
theorem RoundTrip.sping : RoundTrip.Statement .sping := fun _ => by decide
theorem RoundTrip.leadin : RoundTrip.Statement .leadin := fun _ => by decide
theorem RoundTrip.startMark1 : RoundTrip.Statement .startMark1 := fun _ => by decide
theorem RoundTrip.startMark0 : RoundTrip.Statement .startMark0 := fun _ => by decide
theorem RoundTrip.bit (b : Bool) : RoundTrip.Statement (.bit b) := by
  unfold RoundTrip.Statement
  revert b
  decide
theorem RoundTrip.paritySlot (p : Bool) : RoundTrip.Statement (.paritySlot p) := by
  unfold RoundTrip.Statement
  revert p
  decide
theorem RoundTrip.trailer0 : RoundTrip.Statement .trailer0 := fun _ => by decide
theorem RoundTrip.trailer1 : RoundTrip.Statement .trailer1 := fun _ => by decide
theorem RoundTrip.guard : RoundTrip.Statement .guard := fun _ => by decide
theorem RoundTrip.recvWindow : RoundTrip.Statement .recvWindow := fun _ => by decide
theorem RoundTrip.frameB71P0 (rest : BitVec 7) : RoundTrip.Statement (.frameB71P0 rest) := by
  unfold RoundTrip.Statement
  revert rest
  decide
theorem RoundTrip.frameB71P1 (rest : BitVec 7) : RoundTrip.Statement (.frameB71P1 rest) := by
  unfold RoundTrip.Statement
  revert rest
  decide
theorem RoundTrip.frameB70P0 (rest : BitVec 7) : RoundTrip.Statement (.frameB70P0 rest) := by
  unfold RoundTrip.Statement
  revert rest
  decide
theorem RoundTrip.frameB70P1 (rest : BitVec 7) : RoundTrip.Statement (.frameB70P1 rest) := by
  unfold RoundTrip.Statement
  revert rest
  decide

end Sys2Proof.Laws
end

