-- ==== Sys2Proof/Laws/Runs.lean ====
section
/-! SUPPORT. Runs: their unfolding, their induction, and what a step is in a quiet environment. -/

namespace Sys2Proof.Machine

@[simp] theorem runs_zero (s : State) : runs 0 s = .next s := rfl

theorem runs_succ (k : Nat) (s : State) : runs (k + 1) s = andThen (step s) (runs k) := by
  refine (Host.Core.run.eq_2 core s k).trans ?_
  have e : core.step s = step s := rfl
  cases h : step s <;> rw [e, h] <;> rfl

theorem runs_add (j k : Nat) (s : State) : runs (j + k) s = andThen (runs j s) (runs k) := by
  induction j generalizing s with
  | zero => simp
  | succ j ih =>
    rw [Nat.add_right_comm, runs_succ, runs_succ]
    cases step s <;> simp [ih]

/-- What every step keeps holds at the end of every run. -/
theorem runs_keep {P : State → Prop} (hstep : ∀ s t, P s → step s = .next t → P t) {k : Nat} {s t : State} (hs : P s)
    (h : runs k s = .next t) : P t := by
  induction k generalizing s with
  | zero => cases h; exact hs
  | succ k ih =>
    rw [runs_succ, andThen_eq_next] at h
    obtain ⟨u, hu, h⟩ := h
    exact ih (hstep s u hs hu) h

/-- Where every state of a kind has a next state of that kind, no run from one stops. -/
theorem runs_go {P : State → Prop} (hstep : ∀ s, P s → ∃ t, step s = .next t ∧ P t) (k : Nat) {s : State} (hs : P s) :
    ∃ t, runs k s = .next t ∧ P t := by
  induction k generalizing s with
  | zero => exact ⟨s, rfl, hs⟩
  | succ k ih =>
    obtain ⟨u, hu, hp⟩ := hstep s hs
    obtain ⟨t, ht, hp⟩ := ih hp
    exact ⟨t, by rw [runs_succ, hu, andThen_next, ht], hp⟩

/-- In a quiet environment a step is the engine's step alone. -/
theorem step_of_quiet {s : State} (hr : s.Ready) (hq : s.Quiet) :
    step s = andThen (engineTick { s with out := Out.none }) fun u => .next (endTick (hostSee u)) := by
  obtain ⟨h1, h2, h3, h4⟩ := hr
  obtain ⟨q1, -, -, q4, q5⟩ := hq
  have : hostPresent s.clearOut = (none, { s with out := Out.none }) := by
    obtain ⟨c, e, ⟨rv, rc, ac, re, ph, wa⟩, env, b, ti, o, tr⟩ := s
    cases q4
    cases q5
    change env.script = [] at q1
    simp [hostPresent, State.hostItem, State.clearOut, q1, controllerMove, admitCalls, controllerAct, HostMove.quiet,
      State.applyMove, Out.none]
  rw [step_of_ready h1 h2 h3 h4, ordinaryTick, this]
  rfl

/-- After such a step the environment is quiet still. -/
theorem quiet_endTick {s u : State} (hq : s.Quiet) (hu : HandlerFrame { s with out := Out.none } u) :
    (endTick (hostSee u)).Quiet := by
  obtain ⟨q1, q2, q3, q4, q5⟩ := hq
  have hs : u.host = s.host := by rw [hu]
  have hh : (hostSee u).host = s.host := by
    have : s.host.phase ≠ .waitEvent := by rw [q4]; nofun
    simp only [hostSee, controllerSee, hs, if_neg this]
  have he : u.env = s.env := by rw [hu]
  refine ⟨?_, ?_, ?_, ?_, ?_⟩
  · simp [endTick, State.dropInputs, State.wireTick, he, q1]
  · simp [endTick, State.dropInputs, State.wireTick, he, q2]
  · change u.bench = none
    rw [hu]
    exact q3
  · exact (congrArg Controller.phase hh).trans q4
  · exact (congrArg Controller.waiting hh).trans q5

end Sys2Proof.Machine
end

