-- ==== Sys2Proof/Tests/Slice0.lean ====
section
/-! SUPPORT. Tests: ill-formed terms, words written out from the encodings of the spec, one step of each instruction with values from
`95_test_vectors.md` or the instruction's rule, and a witness of the hypotheses of each statement. -/

set_option maxRecDepth 8000

namespace Sys2Proof.Tests

open Sys2Proof Sys2Proof.Machine

/-! ## Helpers -/

/-- A symbol's levels as in the table's `encoding` strings: 0 LOW, 1 HIGH, 2 released. -/
def lv (l : List Nat) : List WireLevel := l.map fun n => if n = 0 then .low else if n = 1 then .high else .released

/-- `n` ticks of one level. -/
def rep (n : Nat) (x : Nat) : List Nat := List.replicate n x

/-- The reset engine with `STATE`, `PHASE_COUNTER`, `TIMER` and `DIR` as given. -/
def engAt (c : BitVec 5) (phase : BitVec 8) (timer : BitVec 32) (d : Dir) : Engine :=
  { Engine.reset with state := c, phaseCounter := phase, timer := timer, dir := d }

/-- The reset state with that engine and these levels to come on the line. -/
def at_ (c : BitVec 5) (phase : BitVec 8) (timer : BitVec 32) (d : Dir) (line : List Level) : State :=
  { State.reset with eng := engAt c phase timer d, env := { Env.empty with line := line } }

/-- A state with a byte loaded. -/
def withByte (b : Byte) (s : State) : State :=
  { s with eng := { s.eng with pendingByte := b, parity := Machine.parity b } }

/-- A state with something from the host side in the coming tick. -/
def presenting (h : HostItem) (s : State) : State := { s with env := { s.env with script := [h] } }

/-- The state an outcome goes on to. -/
def nextOf : Outcome → Option State
  | .next s => some s
  | _ => none

theorem next_of_isSome {o : Outcome} (h : (nextOf o).isSome = true) : ∃ t, o = .next t := by
  cases o with
  | next s => exact ⟨s, rfl⟩
  | fault r => cases h
  | refused r => cases h

theorem next_with {P : State → Prop} {o : Outcome} (h : (nextOf o).isSome = true) (hp : ∀ t, nextOf o = some t → P t) :
    ∃ t, o = .next t ∧ P t := by
  obtain ⟨t, rfl⟩ := next_of_isSome h
  exact ⟨t, rfl, hp t rfl⟩

/-- The engine after an outcome. -/
def engOf (o : Outcome) : Option Engine := (nextOf o).map (·.eng)

/-- The response after an outcome. -/
def respOf (o : Outcome) : Option Response := (nextOf o).bind (·.out.resp)

/-- `STATE`, `TIMER`, `PHASE_COUNTER`, `DIR`, `DOUT`. -/
structure Seq where
  state : BitVec 5
  timer : BitVec 32
  phase : BitVec 8
  dir : Dir
  dout : Level
  deriving DecidableEq, Repr

/-- These registers after an outcome. -/
def seqOf (o : Outcome) : Option Seq := (engOf o).map fun e => ⟨e.state, e.timer, e.phaseCounter, e.dir, e.dout⟩

/-- `LAST_ERROR`, `ERR_PHASE`, `ERR` after an outcome. -/
def errorOf (o : Outcome) : Option (BitVec 3 × Bool × Bool) := (engOf o).map fun e => (e.lastError, e.errPhase, e.err)

/-- The wire levels of an outcome's trace, the first tick first. -/
def wiresOf (o : Outcome) : Option (List Level) := (nextOf o).map fun s => (s.trace.map (·.wire)).reverse

/-- Levels from 0 and 1. -/
def ticks (l : List Nat) : List Level := l.map fun n => if n = 0 then .low else .high

/-! ## Well-formedness: a frame with the wrong parity slot is refused (R89) -/

theorem test_wf_frameB71P0 : Instr.wf (.frameB71P0 0x00) = false := by decide
theorem test_wf_frameB71P1 : Instr.wf (.frameB71P1 0x7F) = false := by decide
theorem test_wf_frameB70P0 : Instr.wf (.frameB70P0 0x46) = false := by decide
theorem test_wf_frameB70P1 : Instr.wf (.frameB70P1 0x00) = false := by decide

/-! ## Decoding: words written out from R82, R84, R88, R89 -/

theorem test_decode_commands :
    decodeCmd 0x0000 = some .nop ∧ decodeCmd 0x1000 = some .swon ∧ decodeCmd 0x2000 = some .swoff
      ∧ decodeCmd 0x3046 = some (.loadb 0x46) ∧ decodeCmd 0x3008 = some (.loadb 0x08) ∧ decodeCmd 0x4000 = some .start
      ∧ decodeCmd 0x5000 = some .detach ∧ decodeCmd 0x6000 = some .forceok ∧ decodeCmd 0x7000 = some (.rd 0)
      ∧ decodeCmd 0x7004 = some (.rd 4) ∧ decodeCmd 0x700F = some (.rd 15) := by decide

theorem test_decode_states_0_10 :
    decodeState 0 = some .idle ∧ decodeState 1 = some .mpingStart ∧ decodeState 2 = some .mpingEnd
      ∧ decodeState 3 = some .waitSping ∧ decodeState 4 = some .spingStart ∧ decodeState 5 = some .spingEnd
      ∧ decodeState 6 = some .requestCtrl ∧ decodeState 7 = some .startTransfer ∧ decodeState 8 = some .sendData
      ∧ decodeState 9 = some .endTransfer ∧ decodeState 10 = some .sendEndMping := by decide

theorem test_decode_states_11_22 :
    decodeState 11 = some .waitData ∧ decodeState 12 = some .recvDataStart ∧ decodeState 13 = some .recvDataEnd
      ∧ decodeState 14 = some .sendCfmMpingStart ∧ decodeState 15 = some .sendCfmMpingEnd
      ∧ decodeState 16 = some .waitCfmSping ∧ decodeState 17 = some .recvCfmSpingStart
      ∧ decodeState 18 = some .recvCfmSpingEnd ∧ decodeState 19 = some .finish ∧ decodeState 20 = some .ok
      ∧ decodeState 21 = some .error ∧ decodeState 22 = none := by decide

theorem test_decode_mping : decodeWire ⟨.ping, lv (rep 64 1 ++ [0])⟩ = some .mping := by decide
theorem test_decode_sping : decodeWire ⟨.slavePing, lv [1, 1, 1, 1]⟩ = some .sping := by decide
theorem test_decode_leadin : decodeWire ⟨.leadin, lv [0, 0, 0, 0]⟩ = some .leadin := by decide
theorem test_decode_startMark :
    decodeWire ⟨.startMark, lv [1, 0]⟩ = some .startMark1 ∧ decodeWire ⟨.startMark, lv [1, 1, 0, 0]⟩ = some .startMark0 := by
  decide
theorem test_decode_bit :
    decodeWire ⟨.dataBit, lv [0, 0, 0, 0]⟩ = some (.bit false) ∧ decodeWire ⟨.dataBit, lv [1, 1, 1, 1]⟩ = some (.bit true)
      ∧ decodeWire ⟨.dataBit, lv [1, 1, 1, 0]⟩ = none := by decide
theorem test_decode_paritySlot :
    decodeWire ⟨.paritySlot, lv [0, 0, 0, 0]⟩ = some (.paritySlot false)
      ∧ decodeWire ⟨.paritySlot, lv [1, 1, 1, 1]⟩ = some (.paritySlot true) := by decide
theorem test_decode_trailer :
    decodeWire ⟨.trailer, lv [1, 1, 1, 1]⟩ = some .trailer0 ∧ decodeWire ⟨.trailer, lv [0, 1, 0]⟩ = some .trailer1 := by
  decide
theorem test_decode_guard : decodeWire ⟨.guard, lv [0, 0, 0, 0]⟩ = some .guard := by decide
theorem test_decode_recvWindow :
    decodeWire ⟨.recvWindow, lv (rep 188 2)⟩ = some .recvWindow ∧ decodeWire ⟨.recvWindow, lv (rep 187 2)⟩ = none := by decide

/-- The frame of 0xAA, from T3. -/
theorem test_decode_frameB71P0 :
    decodeWire ⟨.frame, lv (rep 4 0 ++ [1, 0] ++ rep 4 1 ++ rep 4 0 ++ rep 4 1 ++ rep 4 0 ++ rep 4 1 ++ rep 4 0 ++ rep 4 1
      ++ rep 8 0 ++ rep 4 1 ++ rep 4 0)⟩ = some (.frameB71P0 0x2A) := by decide
/-- The frame of 0x80, from T3. -/
theorem test_decode_frameB71P1 :
    decodeWire ⟨.frame, lv (rep 4 0 ++ [1, 0] ++ rep 4 1 ++ rep 28 0 ++ rep 4 1 ++ [0, 1, 0] ++ rep 4 0)⟩
      = some (.frameB71P1 0x00) := by decide
/-- The frame of 0x55, from T3. -/
theorem test_decode_frameB70P0 :
    decodeWire ⟨.frame, lv (rep 4 0 ++ [1, 1, 0, 0] ++ rep 4 0 ++ rep 4 1 ++ rep 4 0 ++ rep 4 1 ++ rep 4 0 ++ rep 4 1
      ++ rep 4 0 ++ rep 4 1 ++ rep 4 0 ++ rep 4 1 ++ rep 4 0)⟩ = some (.frameB70P0 0x55) := by decide
/-- The frame of 0x46, from T3. -/
theorem test_decode_frameB70P1 :
    decodeWire ⟨.frame, lv (rep 4 0 ++ [1, 1, 0, 0] ++ rep 4 0 ++ rep 4 1 ++ rep 12 0 ++ rep 8 1 ++ rep 4 0 ++ rep 4 1
      ++ [0, 1, 0] ++ rep 4 0)⟩ = some (.frameB70P1 0x46) := by decide
/-- T4: the slot is consistent with its trailer but not with the byte: a frame, but not of a well-formed instruction. -/
theorem test_decodeFrame_wrong_parity :
    Machine.decodeFrame (ticks (rep 4 0 ++ [1, 1, 0, 0] ++ rep 4 0 ++ rep 4 1 ++ rep 12 0 ++ rep 8 1 ++ rep 8 0
      ++ rep 4 1 ++ rep 4 0)) = some ⟨0x46, false, false⟩ := by decide
/-- T4: the trailer does not match the slot. -/
theorem test_decodeFrame_wrong_trailer :
    Machine.decodeFrame (ticks (rep 4 0 ++ [1, 1, 0, 0] ++ rep 4 0 ++ rep 4 1 ++ rep 12 0 ++ rep 8 1 ++ rep 8 0
      ++ [0, 1, 0] ++ rep 4 0)) = none := by decide
/-- T4: the mark announces bit 7 = 1, the first slot says 0. -/
theorem test_decodeFrame_wrong_mark :
    Machine.decodeFrame (ticks (rep 4 0 ++ [1, 0] ++ rep 4 0 ++ rep 4 1 ++ rep 12 0 ++ rep 8 1 ++ rep 4 0 ++ rep 4 1
      ++ [0, 1, 0] ++ rep 4 0)) = none := by decide

/-- T2: spot values of the parity. -/
theorem test_parity :
    [0x00, 0x08, 0x46, 0xFF, 0x80, 0x01, 0xAA, 0x7F].map Machine.parity
      = [false, true, true, false, true, true, false, true] := by decide

/-! ## Commands (T9, T2; R202 to R209) -/

theorem test_nop : respOf (exec .nop State.reset) = some ⟨.ack, 0⟩ ∧ engOf (exec .nop State.reset) = some Engine.reset := by
  decide
theorem test_swon : engOf (exec .swon State.reset) = some { Engine.reset with switch := true } := by decide
theorem test_swoff :
    engOf (exec .swoff { State.reset with eng := { Engine.reset with switch := true } }) = some Engine.reset := by decide
/-- T2: `x3` after `LOADB 0x46`. -/
theorem test_loadb : ((engOf (exec (.loadb 0x46) State.reset)).map fun e => regRead e 3) = some (some 0x00000146) := by decide
/-- T9: refused while busy, the byte stays. -/
theorem test_loadb_busy :
    respOf (exec (.loadb 0x46) (at_ cMpingEnd 0 64 .output [])) = some ⟨.rejBusy, 0⟩
      ∧ engOf (exec (.loadb 0x46) (at_ cMpingEnd 0 64 .output [])) = some (engAt cMpingEnd 0 64 .output) := by decide
theorem test_start :
    let e := { withByte 0x46 (at_ cError 5 0 .output []) with eng := { (withByte 0x46 (at_ cError 5 0 .output [])).eng with
      lastError := 1, errPhase := true, err := true, roundCount := 3 } }
    engOf (exec .start e)
      = some { Engine.reset with state := cMpingStart, pendingByte := 0x46, parity := true } := by decide
theorem test_start_busy : respOf (exec .start (at_ cFinish 12 1 .input [])) = some ⟨.rejBusy, 0⟩ := by decide
theorem test_detach :
    engOf (exec .detach (withByte 0x46 (at_ cSpingEnd 12 3 .input []))) = some Engine.reset := by decide
theorem test_forceok :
    seqOf (exec .forceok (at_ cError 5 0 .output [])) = some ⟨cOk, 0, 5, .output, .low⟩
      ∧ respOf (exec .forceok (at_ cOk 0 0 .output [])) = some ⟨.rejState, 0⟩ := by decide
/-- The status words of `S0`. -/
theorem test_rd :
    let s := withByte 0x46 { State.reset with eng := { Engine.reset with switch := true } }
    [0, 1, 2, 3, 4, 5].map (fun n => respOf (exec (.rd n) s))
      = [some ⟨.ack, 0x00001D00⟩, some ⟨.ack, 0⟩, some ⟨.ack, 0⟩, some ⟨.ack, 0x00000146⟩, some ⟨.ack, 0⟩,
         some ⟨.rejIllegal, 0⟩] := by decide
/-- T5, row `w = 9`: the words of a too short SPING. -/
theorem test_rd_error :
    let e := { engAt cError 9 0 .output with switch := true, pendingByte := 0x46, parity := true, lastError := 2, err := true }
    [0, 1, 2, 3].map (regRead e) = [some 0x00001D95, some 0x00000002, some 0x00000900, some 0x00000146] := by decide

/-! ## Handlers (T1, T5 to T8, R167 to R188) -/

theorem test_idle : engOf (exec .idle State.reset) = some Engine.reset := by decide
theorem test_mpingStart : seqOf (exec .mpingStart (at_ cMpingStart 0 0 .output [])) = some ⟨2, 64, 0, .output, .high⟩ := by
  decide
theorem test_mpingEnd : seqOf (exec .mpingEnd (at_ cMpingEnd 0 0 .output [])) = some ⟨3, 1, 0, .output, .low⟩ := by decide
theorem test_waitSping : seqOf (exec .waitSping (at_ cWaitSping 7 0 .output [])) = some ⟨4, 4, 0, .input, .low⟩ := by decide
theorem test_spingStart :
    seqOf (exec .spingStart (at_ cSpingStart 3 0 .input [.high])) = some ⟨5, 4, 1, .input, .low⟩
      ∧ seqOf (exec .spingStart (at_ cSpingStart 3 0 .input [.low])) = some ⟨4, 4, 4, .input, .low⟩ := by decide
/-- T5, row `w = 0`. -/
theorem test_spingStart_timeout :
    seqOf (exec .spingStart (at_ cSpingStart 4 0 .input [.low])) = some ⟨21, 0, 5, .output, .low⟩
      ∧ errorOf (exec .spingStart (at_ cSpingStart 4 0 .input [.low])) = some (1, false, true) := by decide
/-- T5, rows `w = 10` and `w = 9`. -/
theorem test_spingEnd_low :
    seqOf (exec .spingEnd (at_ cSpingEnd 10 0 .input [.low])) = some ⟨6, 4, 10, .input, .low⟩
      ∧ seqOf (exec .spingEnd (at_ cSpingEnd 9 0 .input [.low])) = some ⟨21, 0, 9, .output, .low⟩
      ∧ errorOf (exec .spingEnd (at_ cSpingEnd 9 0 .input [.low])) = some (2, false, true) := by decide
/-- T5, rows `w = 20` and `w = 21`. -/
theorem test_spingEnd_high :
    seqOf (exec .spingEnd (at_ cSpingEnd 19 0 .input [.high])) = some ⟨5, 4, 20, .input, .low⟩
      ∧ seqOf (exec .spingEnd (at_ cSpingEnd 20 0 .input [.high])) = some ⟨21, 0, 21, .output, .low⟩
      ∧ errorOf (exec .spingEnd (at_ cSpingEnd 20 0 .input [.high])) = some (3, false, true) := by decide
theorem test_requestCtrl : seqOf (exec .requestCtrl (at_ cRequestCtrl 16 0 .input [])) = some ⟨7, 4, 0, .output, .low⟩ := by
  decide
/-- The start mark of 0x46 is long, that of 0x80 short. -/
theorem test_startTransfer :
    seqOf (exec .startTransfer (withByte 0x46 (at_ cStartTransfer 0 0 .output []))) = some ⟨7, 2, 1, .output, .high⟩
      ∧ seqOf (exec .startTransfer (withByte 0x46 (at_ cStartTransfer 1 0 .output []))) = some ⟨8, 2, 0, .output, .low⟩
      ∧ seqOf (exec .startTransfer (withByte 0x80 (at_ cStartTransfer 1 0 .output []))) = some ⟨8, 1, 0, .output, .low⟩ := by
  decide
/-- Bit 6 and bit 0 of 0x46. -/
theorem test_sendData :
    seqOf (exec .sendData (withByte 0x46 (at_ cSendData 1 0 .output []))) = some ⟨8, 4, 2, .output, .high⟩
      ∧ seqOf (exec .sendData (withByte 0x46 (at_ cSendData 7 0 .output []))) = some ⟨9, 4, 0, .output, .low⟩ := by decide
/-- The five pulses of parity 1. -/
theorem test_endTransfer_p1 :
    [0, 1, 2, 3, 4].map (fun n => seqOf (exec .endTransfer (withByte 0x46 (at_ cEndTransfer n 0 .output []))))
      = [some ⟨9, 4, 1, .output, .high⟩, some ⟨9, 1, 2, .output, .low⟩, some ⟨9, 1, 3, .output, .high⟩,
         some ⟨9, 1, 4, .output, .low⟩, some ⟨10, 4, 0, .output, .low⟩] := by decide
/-- The three pulses of parity 0. -/
theorem test_endTransfer_p0 :
    [0, 1, 2].map (fun n => seqOf (exec .endTransfer (at_ cEndTransfer n 0 .output [])))
      = [some ⟨9, 4, 1, .output, .low⟩, some ⟨9, 4, 2, .output, .high⟩, some ⟨10, 4, 0, .output, .low⟩] := by decide
theorem test_sendEndMping :
    seqOf (exec .sendEndMping (at_ cSendEndMping 0 0 .output [])) = some ⟨10, 64, 1, .output, .high⟩
      ∧ seqOf (exec .sendEndMping (at_ cSendEndMping 1 0 .output [])) = some ⟨11, 1, 0, .output, .low⟩ := by decide
theorem test_waitData : seqOf (exec .waitData (at_ cWaitData 0 0 .output [])) = some ⟨12, 4, 0, .input, .low⟩ := by decide
theorem test_recvDataStart :
    seqOf (exec .recvDataStart (at_ cRecvDataStart 0 0 .input [])) = some ⟨13, 184, 0, .input, .low⟩ := by decide
theorem test_recvDataEnd : seqOf (exec .recvDataEnd (at_ cRecvDataEnd 0 0 .input [])) = some ⟨14, 4, 0, .output, .low⟩ := by
  decide
theorem test_sendCfmMpingStart :
    seqOf (exec .sendCfmMpingStart (at_ cSendCfmMpingStart 0 0 .output [])) = some ⟨15, 64, 0, .output, .high⟩ := by decide
theorem test_sendCfmMpingEnd :
    seqOf (exec .sendCfmMpingEnd (at_ cSendCfmMpingEnd 0 0 .output [])) = some ⟨16, 1, 0, .output, .low⟩ := by decide
theorem test_waitCfmSping : seqOf (exec .waitCfmSping (at_ cWaitCfmSping 0 0 .output [])) = some ⟨17, 4, 0, .input, .low⟩ := by
  decide
/-- T8: the confirm phase sets `ERR_PHASE`. -/
theorem test_recvCfmSpingStart :
    seqOf (exec .recvCfmSpingStart (at_ cRecvCfmSpingStart 0 0 .input [.high])) = some ⟨18, 4, 1, .input, .low⟩
      ∧ errorOf (exec .recvCfmSpingStart (at_ cRecvCfmSpingStart 4 0 .input [.low])) = some (1, true, true) := by decide
theorem test_recvCfmSpingEnd :
    seqOf (exec .recvCfmSpingEnd (at_ cRecvCfmSpingEnd 16 0 .input [.low])) = some ⟨19, 4, 16, .input, .low⟩
      ∧ errorOf (exec .recvCfmSpingEnd (at_ cRecvCfmSpingEnd 20 0 .input [.high])) = some (3, true, true) := by decide
/-- R186, REF: nine rounds, 950 ticks between them. -/
theorem test_finish :
    seqOf (exec .finish (at_ cFinish 16 0 .input [])) = some ⟨1, 950, 0, .output, .low⟩
      ∧ (engOf (exec .finish { at_ cFinish 16 0 .input [] with eng := { engAt cFinish 16 0 .input with roundCount := 8 } })).map
          (fun e => (e.state, e.timer, e.roundCount, e.done, e.dir)) = some (20, 0, 9, true, .output) := by decide
theorem test_ok : engOf (exec .ok (at_ cOk 0 0 .output [])) = some (engAt cOk 0 0 .output) := by decide
theorem test_error : engOf (exec .error (at_ cError 5 0 .output [])) = some (engAt cError 5 0 .output) := by decide

/-! ## Wire symbols (T3, T13; R141 to R152) -/

theorem test_mping : wiresOf (exec .mping State.reset) = some (ticks (rep 64 1 ++ [0])) := by decide
theorem test_sping :
    (nextOf (exec .sping (at_ cSpingEnd 3 2 .input [.low]))).map (·.env.line) = some (ticks [1, 1, 1, 1, 0]) := by decide
theorem test_leadin : wiresOf (exec .leadin State.reset) = some (ticks [0, 0, 0, 0]) := by decide
theorem test_startMark1 : wiresOf (exec .startMark1 State.reset) = some (ticks [1, 0]) := by decide
theorem test_startMark0 : wiresOf (exec .startMark0 State.reset) = some (ticks [1, 1, 0, 0]) := by decide
theorem test_bit : wiresOf (exec (.bit true) State.reset) = some (ticks [1, 1, 1, 1]) := by decide
theorem test_paritySlot : wiresOf (exec (.paritySlot true) State.reset) = some (ticks [1, 1, 1, 1]) := by decide
theorem test_trailer0 : wiresOf (exec .trailer0 State.reset) = some (ticks [1, 1, 1, 1]) := by decide
theorem test_trailer1 : wiresOf (exec .trailer1 State.reset) = some (ticks [0, 1, 0]) := by decide
theorem test_guard : wiresOf (exec .guard State.reset) = some (ticks [0, 0, 0, 0]) := by decide
theorem test_recvWindow :
    (nextOf (exec .recvWindow State.reset)).map (fun s => (s.tick, s.eng.dir, s.eng.dout)) = some (188, .input, .low) := by
  decide
/-- T3: the frame of 0xFF. -/
theorem test_frameB71P0 :
    wiresOf (exec (.frameB71P0 0x7F) State.reset)
      = some (ticks (rep 4 0 ++ rep 1 1 ++ rep 1 0 ++ rep 32 1 ++ rep 4 0 ++ rep 4 1 ++ rep 4 0)) := by decide
/-- T3: the frame of 0x80. -/
theorem test_frameB71P1 :
    wiresOf (exec (.frameB71P1 0x00) State.reset)
      = some (ticks (rep 4 0 ++ rep 1 1 ++ rep 1 0 ++ rep 4 1 ++ rep 28 0 ++ rep 4 1 ++ rep 1 0 ++ rep 1 1 ++ rep 5 0)) := by
  decide
/-- T3: the frame of 0x00. -/
theorem test_frameB70P0 :
    wiresOf (exec (.frameB70P0 0x00) State.reset)
      = some (ticks (rep 4 0 ++ rep 2 1 ++ rep 38 0 ++ rep 4 1 ++ rep 4 0)) := by decide
/-- T3: the frame of 0x46. -/
theorem test_frameB70P1 :
    wiresOf (exec (.frameB70P1 0x46) State.reset)
      = some (ticks (rep 4 0 ++ rep 2 1 ++ rep 6 0 ++ rep 4 1 ++ rep 12 0 ++ rep 8 1 ++ rep 4 0 ++ rep 4 1 ++ rep 1 0
          ++ rep 1 1 ++ rep 5 0)) := by decide

/-! ## Steps -/

/-- T1 d: a tick with no handler due. -/
theorem test_step_counts_down : seqOf (step (at_ cMpingEnd 0 3 .output [])) = some ⟨2, 2, 0, .output, .low⟩ := by decide
/-- T1 e. -/
theorem test_step_runs_handler : seqOf (step (at_ cMpingEnd 0 1 .output [])) = some ⟨3, 1, 0, .output, .low⟩ := by decide
/-- `START` at tick 0: `MPING_START` runs in the same tick (R68, T1 f). -/
theorem test_step_start :
    seqOf (step (presenting (.word 0x4000) State.reset)) = some ⟨2, 64, 0, .output, .high⟩
      ∧ respOf (step (presenting (.word 0x4000) State.reset)) = some ⟨.ack, 0⟩ := by decide
/-- The host's first tick of `request_voltage(9V)` (R222 step 2). -/
theorem test_step_call : (engOf (step (presenting (.call [.v9]) State.reset))).map (·.switch) = some true := by decide
/-- R280: `rst` wins. -/
theorem test_step_rst :
    engOf (step { presenting (.word 0x4000) State.reset with env := { Env.empty with script := [.word 0x4000], rst := [true] } })
      = some Engine.reset := by decide
/-- A word of the table in each format is read as its row. -/
theorem test_decodeTableWord :
    decodeTableWord 16 0x3000 = some (.loadb 0) ∧ decodeTableWord 8 0x13 = some .finish
      ∧ decodeTableWord 72 0xFFFFFFFFFFFFFFFF = some .mping := by decide
/-- The placed word is the one the next step runs. -/
theorem test_withFetchWord :
    respOf (step (State.reset.withFetchWord 16 0x7000)) = some ⟨.ack, 0x500⟩
      ∧ seqOf (step (State.reset.withFetchWord 8 0x13)) = some ⟨1, 950, 0, .output, .low⟩
      ∧ wiresOf (step (State.reset.withFetchWord 72 0xFFFFFFFFFFFFFFFF)) = some (ticks (rep 64 1 ++ [0])) := by decide

/-! ## Witnesses: concrete states and operands that meet the hypotheses of each statement -/

theorem test_witness_DecodeInvertsEncode :
    Instr.wf (.frameB71P0 0x7F) = true ∧ Instr.wf (.frameB71P1 0x00) = true ∧ Instr.wf (.frameB70P0 0x00) = true
      ∧ Instr.wf (.frameB70P1 0x46) = true ∧ Instr.wf (.rd 15) = true ∧ Instr.wf (.loadb 0xFF) = true := by decide

theorem test_witness_EncodeInvertsDecode :
    decode (.cmd 0x700F) = some (.rd 15) ∧ decode (.state 21) = some .error
      ∧ decode (.wire ⟨.trailer, lv [0, 1, 0]⟩) = some .trailer1 := by decide

theorem test_witness_IllegalEncodingsAreRefused :
    decodeCmd 0x8000 = none ∧ decodeCmd 0x3100 = none ∧ decodeCmd 0x6001 = none ∧ decodeCmd 0x7010 = none
      ∧ 5 ≤ (5 : BitVec 4).toNat ∧ 5 ≤ (15 : BitVec 4).toNat ∧ 22 ≤ (22 : BitVec 5).toNat ∧ 22 ≤ (31 : BitVec 5).toNat
      ∧ cfgWf (at_ 22 0 0 .output []).cfg = true ∧ (at_ 22 0 0 .output []).rstNow = false
      ∧ 22 ≤ (at_ 22 0 0 .output []).eng.state.toNat := by decide

/-- Not busy: `IDLE`, `OK`, `ERROR`; busy: the first and the last state of a round. Also for `StartClaimsTheLine`. -/
theorem test_witness_LoadbWritesByteAndParity :
    (∀ c ∈ [cIdle, cOk, cError], let s := at_ c 0 0 .output []
      s.eng.state = cIdle ∨ s.eng.state = cOk ∨ s.eng.state = cError)
      ∧ ∀ c ∈ [cMpingStart, cFinish], let s := at_ c 0 1 .output []
        ¬(s.eng.state = cIdle ∨ s.eng.state = cOk ∨ s.eng.state = cError) := by decide

theorem test_witness_ForceokLeavesErrorOnly :
    (at_ cError 5 0 .output []).eng.state = cError ∧ (at_ cOk 0 0 .output []).eng.state ≠ cError := by decide

theorem test_witness_RdAnswersTheStatusRegister : (4 : BitVec 4).toNat ≤ 4 ∧ 4 < (5 : BitVec 4).toNat := by decide

theorem test_witness_StatusRegisterFields : 5 ≤ (5 : BitVec 4).toNat ∧ 5 ≤ (15 : BitVec 4).toNat := by decide

/-- A word refused, a word accepted, and a state `ERROR` that stays. -/
theorem test_witness_EveryWordIsAnsweredInOrder :
    respOf (runWord (some 0x4000) (at_ cMpingEnd 0 64 .output [])) = some ⟨.rejBusy, 0⟩
      ∧ respOf (runWord (some 0x7000) State.reset) = some ⟨.ack, 0x500⟩
      ∧ (engOf (runWord (some 0x0000) (at_ cError 5 0 .output []))).map (·.state) = some cError := by decide

theorem test_witness_FallingEdgeHandlers : (at_ cMpingEnd 0 0 .output []).eng.dir = .output := by decide

theorem test_witness_SpingWaitHandlers :
    (∀ l ∈ [Level.high, Level.low], (at_ cSpingStart 3 0 .input [l]).eng.dir = .input
        ∧ (at_ cSpingStart 3 0 .input [l]).lineIn = l)
      ∧ ((3 : BitVec 8) + 1).toNat < (at_ cSpingStart 3 0 .input [.low]).cfg.waitSpingCount
      ∧ (at_ cSpingStart 4 0 .input [.low]).cfg.waitSpingCount ≤ ((4 : BitVec 8) + 1).toNat := by decide

theorem test_witness_SpingMeasureHandlers :
    (∀ l ∈ [Level.high, Level.low], (at_ cSpingEnd 19 0 .input [l]).eng.dir = .input
        ∧ (at_ cSpingEnd 19 0 .input [l]).lineIn = l)
      ∧ ((19 : BitVec 8) + 1).toNat ≤ cfgRef.spingMaxUi ∧ cfgRef.spingMaxUi < ((20 : BitVec 8) + 1).toNat
      ∧ (9 : BitVec 8).toNat < cfgRef.spingMinUi ∧ cfgRef.spingMinUi ≤ (10 : BitVec 8).toNat := by decide

/-- Both start marks, both pulses. -/
theorem test_witness_StartTransferPlaysTheMark :
    ∀ n ∈ [(0 : BitVec 8), 1],
      (let s := withByte 0x46 (at_ cStartTransfer n 0 .output [])
       s.eng.dir = .output ∧ s.eng.phaseCounter = n
        ∧ (if s.eng.pendingByte.getLsbD 7 then s.cfg.startMark1 else s.cfg.startMark0) = [⟨.high, 2⟩, ⟨.low, 2⟩])
      ∧ (let s := withByte 0x80 (at_ cStartTransfer n 0 .output [])
         s.eng.dir = .output ∧ s.eng.phaseCounter = n
          ∧ (if s.eng.pendingByte.getLsbD 7 then s.cfg.startMark1 else s.cfg.startMark0) = [⟨.high, 1⟩, ⟨.low, 1⟩]) := by
  decide

theorem test_witness_SendDataDrivesTheBit :
    (let s := withByte 0x46 (at_ cSendData 6 0 .output [])
     s.eng.dir = .output ∧ s.eng.phaseCounter.toNat < 7
      ∧ Level.high.toBool = s.eng.pendingByte.getLsbD (7 - s.eng.phaseCounter.toNat))
    ∧ (let s := withByte 0x46 (at_ cSendData 7 0 .output [])
       s.eng.dir = .output ∧ s.eng.phaseCounter.toNat = 7 ∧ Level.low.toBool = s.eng.pendingByte.getLsbD 0) := by decide

theorem test_defaultShapes : DefaultShapes cfgRef := by unfold DefaultShapes; decide

/-- For both parities, the last pulse but one and the last. -/
theorem test_witness_EndTransferPlaysTheEndSequence :
    DefaultShapes State.reset.cfg
      ∧ (let s := withByte 0x46 (at_ cEndTransfer 3 0 .output [])
         s.eng.dir = .output ∧ (endSeq s.cfg s.eng.parity)[s.eng.phaseCounter.toNat]? = some ⟨.low, 1⟩
          ∧ s.eng.phaseCounter.toNat + 1 < (endSeq s.cfg s.eng.parity).length)
      ∧ (let s := withByte 0x46 (at_ cEndTransfer 4 0 .output [])
         s.eng.dir = .output ∧ (endSeq s.cfg s.eng.parity)[s.eng.phaseCounter.toNat]? = some ⟨.low, 4⟩
          ∧ s.eng.phaseCounter.toNat + 1 = (endSeq s.cfg s.eng.parity).length)
      ∧ (let s := at_ cEndTransfer 1 0 .output []
         s.eng.dir = .output ∧ (endSeq s.cfg s.eng.parity)[s.eng.phaseCounter.toNat]? = some ⟨.high, 4⟩
          ∧ s.eng.phaseCounter.toNat + 1 < (endSeq s.cfg s.eng.parity).length)
      ∧ (let s := at_ cEndTransfer 2 0 .output []
         s.eng.dir = .output ∧ (endSeq s.cfg s.eng.parity)[s.eng.phaseCounter.toNat]? = some ⟨.low, 4⟩
          ∧ s.eng.phaseCounter.toNat + 1 = (endSeq s.cfg s.eng.parity).length) := by
  refine ⟨test_defaultShapes, ?_⟩; decide

theorem test_witness_SendEndMpingDrivesBothEdges :
    (at_ cSendEndMping 0 0 .output []).eng.dir = .output ∧ (at_ cSendEndMping 0 0 .output []).eng.phaseCounter = 0
      ∧ (at_ cSendEndMping 1 0 .output []).eng.dir = .output ∧ (at_ cSendEndMping 1 0 .output []).eng.phaseCounter ≠ 0 := by
  decide

/-- A state of `FINISH` after `n` rounds. -/
def atFinish (n : BitVec 8) : State :=
  { at_ cFinish 16 0 .input [] with eng := { engAt cFinish 16 0 .input with roundCount := n } }

theorem test_witness_FinishCountsTheRound :
    (atFinish 8).cfg.afcCommCnt ≤ ((atFinish 8).eng.roundCount + 1).toNat
      ∧ ((atFinish 7).eng.roundCount + 1).toNat < (atFinish 7).cfg.afcCommCnt := by decide

theorem test_witness_PadPreconditionsAreKept :
    (at_ cStartTransfer 1 0 .input []).eng.dir = .input
      ∧ (1 : BitVec 8).toNat < (startMark cfgRef false).length ∧ (7 : BitVec 8).toNat ≤ 7
      ∧ (2 : BitVec 8).toNat < (endSeq cfgRef false).length ∧ (4 : BitVec 8).toNat < (endSeq cfgRef true).length
      ∧ (at_ cSpingStart 0 0 .output []).eng.dir = .output
      ∧ (startMark cfgRef false).length ≤ (2 : BitVec 8).toNat ∧ 7 < (8 : BitVec 8).toNat
      ∧ (endSeq cfgRef false).length ≤ (3 : BitVec 8).toNat ∧ (endSeq cfgRef true).length ≤ (5 : BitVec 8).toNat := by
  decide

theorem test_witness_ErrorEntryRecordsAndReleases : (1 : BitVec 3) ≠ 0 ∧ (3 : BitVec 3) ≠ 0 := by decide

/-- Also for `FramesDecodeToTheirByte`. -/
theorem test_witness_SymbolPulseSequences : DefaultShapes cfgRef := test_defaultShapes

/-- Also for `FramesDriveTheirLevels`. -/
theorem test_witness_BlockSymbolsDriveTheirLevels : cfgWf State.reset.cfg = true := by decide

/-- The invariant in a state that measures a SPING, `n` samples in. -/
theorem test_inv_spingEnd :
    (at_ cSpingEnd 19 4 .input []).Inv ∧ (at_ cSpingEnd 1 1 .input [.low]).Inv := by
  constructor
  · refine ⟨by decide, ⟨by decide, by decide, by decide, by decide, by decide, by decide, by decide, by decide, by decide,
      by decide, by decide, by decide, by decide, by decide, by decide, ?_⟩, by decide⟩
    show 1 ≤ (19 : BitVec 8).toNat ∧ (19 : BitVec 8).toNat ≤ 20
    decide
  · refine ⟨by decide, ⟨by decide, by decide, by decide, by decide, by decide, by decide, by decide, by decide, by decide,
      by decide, by decide, by decide, by decide, by decide, by decide, ?_⟩, by decide⟩
    show 1 ≤ (1 : BitVec 8).toNat ∧ (1 : BitVec 8).toNat ≤ 20
    decide

/-- The same for the confirm SPING. -/
theorem test_inv_recvCfmSpingEnd : (at_ cRecvCfmSpingEnd 19 4 .input []).Inv := by
  refine ⟨by decide, ⟨by decide, by decide, by decide, by decide, by decide, by decide, by decide, by decide, by decide,
    by decide, by decide, by decide, by decide, by decide, by decide, ?_⟩, by decide⟩
  show 1 ≤ (19 : BitVec 8).toNat ∧ (19 : BitVec 8).toNat ≤ 20
  decide

theorem test_quiet (c : BitVec 5) (n : BitVec 8) (k : BitVec 32) (d : Dir) (l : List Level) : (at_ c n k d l).Quiet :=
  ⟨rfl, rfl, rfl, rfl, rfl⟩

theorem test_witness_SlavePingCountsOneSample :
    ((at_ cSpingEnd 19 4 .input []).Inv ∧ (at_ cSpingEnd 19 4 .input []).Quiet
        ∧ (at_ cSpingEnd 19 4 .input []).eng.state = cSpingEnd ∧ (at_ cSpingEnd 19 4 .input []).eng.timer.toNat ≤ 4
        ∧ (at_ cSpingEnd 19 4 .input []).eng.phaseCounter.toNat + 1 ≤ (at_ cSpingEnd 19 4 .input []).cfg.spingMaxUi)
      ∧ (at_ cRecvCfmSpingEnd 19 4 .input []).Inv ∧ (at_ cRecvCfmSpingEnd 19 4 .input []).Quiet
        ∧ (at_ cRecvCfmSpingEnd 19 4 .input []).eng.state = cRecvCfmSpingEnd
        ∧ (at_ cRecvCfmSpingEnd 19 4 .input []).eng.timer.toNat ≤ 4
        ∧ (at_ cRecvCfmSpingEnd 19 4 .input []).eng.phaseCounter.toNat + 1
            ≤ (at_ cRecvCfmSpingEnd 19 4 .input []).cfg.spingMaxUi :=
  ⟨⟨test_inv_spingEnd.1, test_quiet .., rfl, by decide, by decide⟩, test_inv_recvCfmSpingEnd, test_quiet .., rfl, by decide,
    by decide⟩

/-- All three results of a reception, in both receptions. -/
theorem test_witness_ReceptionRealisesRecvSping :
    (∀ c ∈ [cSpingStart, cRecvCfmSpingStart], let s := at_ c 0 4 .input []
      cfgWf s.cfg = true ∧ s.eng.dir = .input ∧ s.eng.phaseCounter = 0
        ∧ (s.eng.state = cSpingStart ∨ s.eng.state = cRecvCfmSpingStart))
      ∧ recvSping cfgRef (ticks (rep 1 0 ++ rep 10 1 ++ [0])) = .valid 10
      ∧ recvSping cfgRef (ticks (rep 1 0 ++ rep 9 1 ++ [0])) = .err 2 9
      ∧ recvSping cfgRef (ticks (rep 4 0)) = .undecided := by decide

theorem test_ready : (at_ cMpingEnd 0 1 .output []).Ready ∧ State.reset.Ready :=
  ⟨⟨by decide, by decide, by decide, rfl⟩, ⟨by decide, by decide, by decide, rfl⟩⟩

theorem test_witness_StepRunsThePresentedCommand :
    (presenting (.word 0x3046) State.reset).Ready
      ∧ (presenting (.word 0x3046) State.reset).env.script = .word 0x3046 :: []
      ∧ decodeCmd 0x3046 = some (.loadb 0x46) :=
  ⟨⟨by decide, by decide, by decide, rfl⟩, rfl, by decide⟩

/-- `TIMER` 1, and 0 (the state `START` leaves). -/
theorem test_witness_StepRunsTheDueHandler :
    ∀ k ∈ [(0 : BitVec 32), 1], (at_ cMpingEnd 0 k .output []).Ready
      ∧ (hostPresent (at_ cMpingEnd 0 k .output []).clearOut).1 = none
      ∧ (at_ cMpingEnd 0 k .output []).eng.busy = true ∧ (at_ cMpingEnd 0 k .output []).eng.timer.toNat ≤ 1
      ∧ decodeState (at_ cMpingEnd 0 k .output []).eng.state = some .mpingEnd := by
  intro k hk
  rcases List.mem_cons.1 hk with rfl | hk
  · exact ⟨⟨by decide, by decide, by decide, rfl⟩, rfl, by decide, by decide, by decide⟩
  · obtain rfl := List.mem_singleton.1 hk
    exact ⟨⟨by decide, by decide, by decide, rfl⟩, rfl, by decide, by decide, by decide⟩

/-- The adapter's symbol while the block is busy, a symbol of the block's own while it is not. -/
theorem test_witness_StepPlaysTheBenchSymbol :
    (let s := { at_ cSpingEnd 3 2 .input [] with bench := some ⟨.slavePing, lv [1, 1, 1, 1]⟩ }
     cfgWf s.cfg = true ∧ s.rstNow = false ∧ s.eng.codesLegal = true
      ∧ decodeWire ⟨.slavePing, lv [1, 1, 1, 1]⟩ = some .sping ∧ s.eng.busy = true)
    ∧ (let s := { State.reset with bench := some ⟨.trailer, lv [0, 1, 0]⟩ }
       cfgWf s.cfg = true ∧ s.rstNow = false ∧ s.eng.codesLegal = true
        ∧ decodeWire ⟨.trailer, lv [0, 1, 0]⟩ = some .trailer1 ∧ s.eng.busy = false) := by decide

/-- A resting state; `TIMER` 2, 1 and 0. -/
theorem test_witness_EngineTickCountsDownThenRuns :
    State.reset.eng.state = cIdle
      ∧ decodeState (at_ cMpingEnd 0 2 .output []).eng.state = some .mpingEnd
      ∧ ¬((at_ cMpingEnd 0 2 .output []).eng.state = cIdle ∨ (at_ cMpingEnd 0 2 .output []).eng.state = cOk
        ∨ (at_ cMpingEnd 0 2 .output []).eng.state = cError)
      ∧ 2 ≤ (at_ cMpingEnd 0 2 .output []).eng.timer.toNat ∧ (at_ cMpingEnd 0 1 .output []).eng.timer.toNat ≤ 1
      ∧ (at_ cMpingEnd 0 0 .output []).eng.timer.toNat ≤ 1 := by decide

/-- A step that only counts, and one whose handler samples and decides. -/
theorem test_witness_StepKeepsTheInvariant :
    ((at_ cSpingEnd 19 4 .input []).Inv ∧ ∃ t, step (at_ cSpingEnd 19 4 .input []) = .next t)
      ∧ (at_ cSpingEnd 1 1 .input [.low]).Inv ∧ ∃ t, step (at_ cSpingEnd 1 1 .input [.low]) = .next t :=
  ⟨⟨test_inv_spingEnd.1, next_of_isSome (by decide)⟩, test_inv_spingEnd.2, next_of_isSome (by decide)⟩

theorem test_witness_ResetMeetsTheInvariant : cfgWf cfgRef = true := by decide

/-- Also for `CountersKeepTheirBounds` and, for its first part, `RunsFromResetNeverStop`: a run that has claimed the line. -/
theorem test_witness_ReachableStatesMeetR41 :
    cfgWf cfgRef = true
      ∧ ∃ t, runs 1 { State.resetWith cfgRef with env := { Env.empty with script := [.word 0x4000] } } = .next t
        ∧ t.eng.state = cMpingEnd :=
  ⟨by decide, next_with (by decide) fun t ht => by
    have h : (nextOf (runs 1 { State.resetWith cfgRef with env := { Env.empty with script := [.word 0x4000] } })).map
        (·.eng.state) = some cMpingEnd := by decide
    rw [ht] at h; exact Option.some.inj h⟩

theorem test_witness_ConfigurationIsConstant : ∃ t, step State.reset = .next t := next_of_isSome (by decide)

theorem test_witness_BusyPadIsTheEngines :
    (at_ cMpingEnd 0 64 .output []).eng.busy = true ∧ (0x4000 : BitVec 16) ≠ 0x5000
      ∧ ∃ t, runWord (some 0x4000) (at_ cMpingEnd 0 64 .output []) = .next t :=
  ⟨by decide, by decide, next_of_isSome (by decide)⟩

theorem test_witness_PendingByteStandsWhileBusy :
    (presenting (.word 0x3046) (at_ cMpingEnd 0 64 .output [])).eng.busy = true
      ∧ (presenting (.word 0x3046) (at_ cMpingEnd 0 64 .output [])).rstNow = false
      ∧ (hostPresent (presenting (.word 0x3046) (at_ cMpingEnd 0 64 .output [])).clearOut).1 ≠ some 0x5000
      ∧ ∃ t, step (presenting (.word 0x3046) (at_ cMpingEnd 0 64 .output [])) = .next t :=
  ⟨by decide, by decide, by decide, next_of_isSome (by decide)⟩

theorem test_witness_QuiescentStaysQuiescent :
    State.reset.Ready ∧ State.reset.Quiet ∧ State.reset.eng.busy = false :=
  ⟨test_ready.2, ⟨rfl, rfl, rfl, rfl, rfl⟩, by decide⟩

/-- In the middle of a reception, with the handler due. -/
theorem test_witness_DetachQuiescesForEver :
    let s := presenting (.word 0x5000) (at_ cSpingEnd 3 1 .input [.low])
    s.Ready ∧ s.env.script = [.word 0x5000] ∧ s.env.rst = [] ∧ s.host.phase = .idle ∧ s.host.waiting = [] :=
  ⟨⟨by decide, by decide, by decide, rfl⟩, rfl, rfl, rfl, rfl⟩

theorem test_witness_StatesFollowThePipeline :
    (2 ≤ (at_ cMpingEnd 0 2 .output []).eng.timer.toNat ∧ (at_ cMpingEnd 0 2 .output []).eng.busy = true
        ∧ ∃ t, engineTick (at_ cMpingEnd 0 2 .output []) = .next t)
      ∧ ((at_ cMpingEnd 0 1 .output []).eng.timer.toNat ≤ 1 ∧ ∃ t, engineTick (at_ cMpingEnd 0 1 .output []) = .next t)
      ∧ State.reset.eng.busy = false ∧ ∃ t, engineTick State.reset = .next t :=
  ⟨⟨by decide, by decide, next_of_isSome (by decide)⟩, ⟨by decide, next_of_isSome (by decide)⟩, by decide,
    next_of_isSome (by decide)⟩

/-- A tick that enters `OK`, one that enters `ERROR`, and a command. -/
theorem test_witness_EventExactlyAtTerminalEntry :
    ((atFinish 8).out.event = .none ∧ (nextOf (engineTick (atFinish 8))).map (fun t => (t.out.event, t.eng.state))
        = some (.done, cOk))
      ∧ ((at_ cSpingEnd 9 1 .input [.low]).out.event = .none
        ∧ (nextOf (engineTick (at_ cSpingEnd 9 1 .input [.low]))).map (fun t => (t.out.event, t.eng.state))
          = some (.error, cError))
      ∧ (nextOf (runWord (some 0x6000) (at_ cError 9 0 .output []))).isSome = true := by decide

/-- With `TIMER` 64, for 63 ticks. -/
theorem test_witness_DelaysHoldTheOutputs :
    (at_ cMpingEnd 0 64 .output []).Ready ∧ (at_ cMpingEnd 0 64 .output []).Quiet
      ∧ (at_ cMpingEnd 0 64 .output []).eng.busy = true ∧ 63 < (at_ cMpingEnd 0 64 .output []).eng.timer.toNat :=
  ⟨⟨by decide, by decide, by decide, rfl⟩, test_quiet .., by decide, by decide⟩

/-- The reset state with a `START` to come. -/
def starting : State := presenting (.word 0x4000) State.reset

theorem test_inv_starting : starting.Inv := by
  refine ⟨by decide, ⟨by decide, by decide, by decide, by decide, by decide, by decide, by decide, by decide, by decide,
    by decide, by decide, by decide, by decide, by decide, by decide, ?_⟩, by decide⟩
  show (0 : BitVec 8) = 0
  rfl

theorem test_starting_shapes : DefaultShapes starting.cfg := ⟨rfl, rfl, rfl, rfl⟩

theorem test_witness_HandshakeEndsInBoundedTime :
    starting.Inv ∧ DefaultShapes starting.cfg ∧ starting.eng.busy = false ∧ starting.env.script = [.word 0x4000]
      ∧ starting.env.rst = [] ∧ starting.bench = none ∧ starting.host.phase = .idle ∧ starting.host.waiting = [] :=
  ⟨test_inv_starting, test_starting_shapes, by decide, rfl, rfl, rfl, rfl, rfl⟩

theorem test_witness_ResetGivesTheResetState :
    (∃ t, exec .detach (at_ cSpingEnd 3 2 .input []) = .next t)
      ∧ cfgWf (at_ cSpingEnd 3 2 .input []).cfg = true
      ∧ { at_ cSpingEnd 3 2 .input [] with env := { Env.empty with rst := [true] } : State }.rstNow = true :=
  ⟨next_of_isSome (by decide), by decide, by decide⟩

/-- A Unit Interval that is no multiple of 4 ns. -/
theorem test_witness_IllFormedConfigurationIsRefused :
    cfgWf { cfgRef with uiNs := 160001 } = false ∧ cfgWf { cfgRef with spingMaxUi := 254 } = true
      ∧ cfgWf { cfgRef with spingMaxUi := 255 } = false := by decide

/-- An illegal word, `NOP`, `RD 4`. -/
theorem test_witness_ReadsAndNopsDisturbNothing :
    State.reset.bench = none ∧ State.reset.host.phase = .idle ∧ State.reset.host.waiting = []
      ∧ (decodeCmd 0x8000 = none ∧ ∃ t, step (presenting (.word 0x8000) State.reset) = .next t)
      ∧ (decodeCmd 0x0000 = some .nop ∧ ∃ t, step (presenting (.word 0x0000) State.reset) = .next t)
      ∧ (∃ n, decodeCmd 0x7004 = some (.rd n)) ∧ ∃ t, step (presenting (.word 0x7004) State.reset) = .next t :=
  ⟨rfl, rfl, rfl, ⟨by decide, next_of_isSome (by decide)⟩, ⟨by decide, next_of_isSome (by decide)⟩, ⟨4, by decide⟩,
    next_of_isSome (by decide)⟩

theorem test_witness_EngineIgnoresTheSwitch : ∃ t, engineTick (at_ cMpingEnd 0 1 .output []) = .next t :=
  next_of_isSome (by decide)

theorem test_witness_EngineIgnoresTheLineUnlessReceiving :
    ((at_ cMpingEnd 0 1 .output []).eng.dir = .output ∧ ∃ t, engineTick (at_ cMpingEnd 0 1 .output []) = .next t)
      ∧ (∃ t, engineTick (at_ cRecvDataStart 0 1 .input []) = .next t)
      ∧ ∃ t, engineTick (at_ cRecvDataEnd 0 1 .input []) = .next t :=
  ⟨⟨by decide, next_of_isSome (by decide)⟩, next_of_isSome (by decide), next_of_isSome (by decide)⟩

/-- A host that has achieved 9V, at 9000 mV, with a new call. -/
def repeated : State :=
  { State.reset with host := { Controller.reset with achieved := some .v9 }
                     env := { Env.empty with vbus := [9000], script := [.call [.v9]] } }

theorem test_witness_RepeatedRequestIsANoOp :
    repeated.env.script = .call [.v9] :: [] ∧ repeated.host.phase = .idle ∧ repeated.host.waiting = []
      ∧ repeated.host.achieved = some .v9 ∧ inBand .v9 repeated.vbus = true := by decide

/-- The host at a point of `request_voltage`. -/
def hostAt (p : HostPhase) (n : Nat) : Controller := { Controller.reset with phase := p, retryCount := n }

theorem test_witness_RequestArmsLoadsAndStarts :
    (let h := { Controller.reset with waiting := [.v9] }
     h.phase = .idle ∧ h.waiting = .v9 :: [] ∧ ¬(h.achieved = some .v9 ∧ inBand .v9 9000 = true))
    ∧ (hostAt (.load 1) 0).phase = .load (0 + 1) ∧ (hostAt (.load 0) 0).phase = .load 0
    ∧ (hostAt (.launch 1) 0).phase = .launch (0 + 1) ∧ (hostAt (.launch 0) 0).phase = .launch 0
    ∧ (hostAt .waitEvent 0).phase = .waitEvent := by decide

/-- The cable at 3500 and 3501 mV, the budget spent and one short of it. -/
theorem test_witness_RetryDecision :
    (hostAt .waitEvent 10).phase = .waitEvent ∧ ¬ 3500 < (3500 : Int) ∧ 3500 < (3501 : Int)
      ∧ (hostAt .waitEvent 10).retryCount = cfgRef.afcRetryMax ∧ (hostAt .waitEvent 9).retryCount ≠ cfgRef.afcRetryMax
      ∧ (hostAt .giveUp 10).phase = .giveUp := by decide

/-- In band and not in band, the last poll and the one before it. -/
theorem test_witness_PollsReportAndDetach :
    (hostAt (.poll 5 1) 0).phase = .poll 5 (0 + 1) ∧ (hostAt (.poll 5 0) 0).phase = .poll 5 0
      ∧ inBand (hostAt (.poll 5 0) 0).requestedVoltage 5499 = true
      ∧ inBand (hostAt (.poll 5 0) 0).requestedVoltage 5500 = false
      ∧ 4 < cfgRef.vbusRetryMax ∧ cfgRef.vbusRetryMax ≤ 5 ∧ (hostAt (.report .afcFail) 0).phase = .report .afcFail
      ∧ (presenting .detach State.reset).env.script = .detach :: [] := by decide

end Sys2Proof.Tests
end

/-! Family `00_scope.md`: the well-formed configurations (R8, log 4) and the refusal of every other (R293). -/

namespace Sys2Proof.Machine

/-! ## The shapes of a configuration, as propositions -/

theorem pulseOk_iff {c : Cfg} {p : Pulse} :
    pulseOk c p = true ↔ 1 ≤ p.ticks ∧ p.ticks ≤ max (roundGapTicks c) (max 64 184) := by
  have hmax : timerMax c = max (roundGapTicks c) (max 64 184) := rfl
  rw [← hmax]
  simp only [pulseOk, Bool.and_eq_true, decide_eq_true_eq]

theorem startMarkOk_iff {c : Cfg} {l : List Pulse} :
    startMarkOk c l = true ↔ l.length = 2 ∧ ∀ p ∈ l, pulseOk c p = true := by
  simp only [startMarkOk, Bool.and_eq_true, decide_eq_true_eq, List.all_eq_true]

theorem trailerOk_iff {c : Cfg} {l : List Pulse} :
    trailerOk c l = true ↔ 1 ≤ l.length ∧ l.length ≤ 7 ∧ ∀ p ∈ l, pulseOk c p = true := by
  simp only [trailerOk, Bool.and_eq_true, decide_eq_true_eq, List.all_eq_true, and_assoc]

/-- The four shape conditions, regrouped: the lengths, and one condition on every pulse of any shape. -/
theorem shapesOk_iff {c : Cfg} {m₀ m₁ t₀ t₁ : List Pulse} :
    (startMarkOk c m₀ = true ∧ startMarkOk c m₁ = true ∧ trailerOk c t₀ = true ∧ trailerOk c t₁ = true) ↔
      (m₀.length = 2 ∧ m₁.length = 2)
        ∧ (1 ≤ t₀.length ∧ t₀.length ≤ 7 ∧ 1 ≤ t₁.length ∧ t₁.length ≤ 7)
        ∧ ∀ p ∈ m₀ ++ m₁ ++ t₀ ++ t₁, pulseOk c p = true := by
  simp only [startMarkOk_iff, trailerOk_iff, List.forall_mem_append]
  constructor
  · rintro ⟨⟨hm₀, pm₀⟩, ⟨hm₁, pm₁⟩, ⟨lo₀, hi₀, pt₀⟩, lo₁, hi₁, pt₁⟩
    exact ⟨⟨hm₀, hm₁⟩, ⟨lo₀, hi₀, lo₁, hi₁⟩, ⟨⟨pm₀, pm₁⟩, pt₀⟩, pt₁⟩
  · rintro ⟨⟨hm₀, hm₁⟩, ⟨lo₀, hi₀, lo₁, hi₁⟩, ⟨⟨pm₀, pm₁⟩, pt₀⟩, pt₁⟩
    exact ⟨⟨hm₀, pm₀⟩, ⟨hm₁, pm₁⟩, ⟨lo₀, hi₀, pt₀⟩, lo₁, hi₁, pt₁⟩

/-- The conditions of R8 on the parameters, then those of log 4 on the shapes. -/
theorem cfgWf_iff {c : Cfg} :
    cfgWf c = true ↔
      (0 < c.uiNs ∧ c.uiNs % 4 = 0) ∧ (1 ≤ c.waitSpingCount ∧ c.waitSpingCount ≤ 255)
        ∧ (1 ≤ c.spingMinUi ∧ c.spingMinUi ≤ c.spingMaxUi ∧ c.spingMaxUi ≤ 254)
        ∧ (1 ≤ c.afcCommCnt ∧ c.afcCommCnt ≤ 255)
        ∧ (1 ≤ roundGapTicks c ∧ roundGapTicks c < 2 ^ 32) ∧ 1 ≤ c.vbusRetryMax
        ∧ startMarkOk c c.startMark0 = true ∧ startMarkOk c c.startMark1 = true
        ∧ trailerOk c c.trailer0 = true ∧ trailerOk c c.trailer1 = true := by
  simp only [cfgWf, Bool.and_eq_true, decide_eq_true_eq, and_assoc]

/-! ## The refusal -/

/-- With `rst` asserted or not, an ill-formed configuration has no step (R293). -/
theorem step_of_illFormed {s : State} (h : cfgWf s.cfg = false) : step s = .refused .illFormedConfig := by
  have refuses (o : Outcome) : refuseIllFormed s.cfg o = .refused .illFormedConfig := if_pos h
  unfold step tickStep
  cases s.rstNow with
  | true => exact refuses _
  | false => exact refuses _

/-- Settles O52: the refusal is `step_of_illFormed`; `cfgWf_iff` gives the conditions of R8 and `shapesOk_iff` regroups those
of log 4. -/
theorem illFormedConfigurationIsRefused : Obligations.IllFormedConfigurationIsRefused := by
  refine ⟨fun s => step_of_illFormed, fun c => ?_⟩
  simp only [cfgWf_iff, shapesOk_iff, pulseOk_iff]

end Sys2Proof.Machine

/-! Family `10_state.md`: the status registers and the reset state (R44, R45), what a tick keeps (R25, R36, R40), and the
invariant of the machine (R33, R41). -/

namespace Sys2Proof.Machine

/-! ## What a word at the command port does to the registers -/

/-- All that a word at the command port can do to the registers (R201 to R209): the word, the registers before and after. -/
inductive CommandEffect (w : Option (BitVec 16)) (e : Engine) : Engine → Prop
  /-- `SWON`, `SWOFF`; with the same value `NOP`, `RD`, a rejected command, an illegal word, or no word. -/
  | switched (b : Bool) : CommandEffect w e { e with switch := b }
  /-- `LOADB` (R204). -/
  | loaded (b : Byte) : e.busy = false → CommandEffect w e { e with pendingByte := b, parity := Machine.parity b }
  /-- `START` (R205). -/
  | launched : e.busy = false → CommandEffect w e e.launch
  /-- `DETACH` (R206). -/
  | detached : w = some wordDetach → CommandEffect w e e.detach
  /-- `FORCEOK` (R207). -/
  | forced : e.state = cError → CommandEffect w e e.forceOk

theorem CommandEffect.refl (w : Option (BitVec 16)) (e : Engine) : CommandEffect w e e := .switched e.switch

theorem eq_wordDetach_of_decodeCmd {w : BitVec 16} (h : decodeCmd w = some .detach) : w = wordDetach := by
  unfold decodeCmd at h
  split at h
  next hr =>
    unfold decodeCmdFields at h
    split at h
    case h_6 ho =>
      obtain ⟨hi, -⟩ := decodeNoOperand_eq_some.1 h
      have hw := cmdWord_toNat w
      rw [hr, hi, ho] at hw
      exact BitVec.eq_of_toNat_eq hw
    case h_4 => cases h
    case h_8 => simp [decodeRd] at h
    case h_9 => cases h
    all_goals exact absurd (decodeNoOperand_eq_some.1 h).2 nofun
  next => cases h

/-- A word that decodes names one of the 8 commands (R82). -/
inductive IsCommand : Instr → Prop
  | nop : IsCommand .nop
  | swon : IsCommand .swon
  | swoff : IsCommand .swoff
  | loadb (b : Byte) : IsCommand (.loadb b)
  | start : IsCommand .start
  | detach : IsCommand .detach
  | forceok : IsCommand .forceok
  | rd (n : BitVec 4) : IsCommand (.rd n)

theorem isCommand_of_decodeCmd {w : BitVec 16} {i : Instr} (h : decodeCmd w = some i) : IsCommand i := by
  unfold decodeCmd at h
  split at h
  next =>
    unfold decodeCmdFields at h
    split at h
    case h_4 => cases h; exact .loadb _
    case h_8 => obtain ⟨-, rfl⟩ := decodeRd_eq_some.1 h; exact .rd _
    case h_9 => cases h
    all_goals obtain ⟨-, rfl⟩ := decodeNoOperand_eq_some.1 h; constructor
  next => cases h

/-- The registers after a word at the command port. -/
theorem runWord_effect {w : Option (BitVec 16)} {s t : State} (h : runWord w s = .next t) :
    CommandEffect w s.eng t.eng := by
  cases w with
  | none => cases h; exact .refl _ _
  | some w =>
    cases hi : decodeCmd w with
    | none =>
      simp only [runWord, hi, reject_eq] at h
      cases h; exact .refl _ _
    | some i =>
      simp only [runWord, hi] at h
      cases isCommand_of_decodeCmd hi with
      | nop => cases h; exact .refl _ _
      | swon => cases h; exact .switched true
      | swoff => cases h; exact .switched false
      | loadb b =>
        simp only [exec, execLoadb] at h
        split at h
        next => cases h; exact .refl _ _
        next hb => cases h; exact .loaded b (Bool.eq_false_iff.2 hb)
      | start =>
        simp only [exec, execStart] at h
        split at h
        next => cases h; exact .refl _ _
        next hb => cases h; exact .launched (Bool.eq_false_iff.2 hb)
      | detach => cases h; exact .detached (congrArg some (eq_wordDetach_of_decodeCmd hi))
      | forceok =>
        simp only [exec, execForceok] at h
        split at h
        next he => cases h; exact .forced he
        next => cases h; exact .refl _ _
      | rd n =>
        simp only [exec, execRd] at h
        split at h <;> cases h <;> exact .refl _ _

/-- While the block is busy a word other than `DETACH` can do no more than switch. -/
theorem CommandEffect.of_busy {w : Option (BitVec 16)} {e e' : Engine} (h : CommandEffect w e e') (hb : e.busy = true)
    (hw : w ≠ some wordDetach) : e' = { e with switch := e'.switch } := by
  cases h with
  | switched b => rfl
  | loaded b hr => simp [hb] at hr
  | launched hr => simp [hb] at hr
  | detached hd => exact absurd hd hw
  | forced he => exact absurd he ((busy_eq_true_iff e).1 hb).2.2

/-- A word at the command port touches the engine and the response, nothing else. -/
theorem commandFrame_of_runWord {w : Option (BitVec 16)} {s t : State} (h : runWord w s = .next t) : CommandFrame s t := by
  obtain ⟨u, hu, hf⟩ := runWord_frame w s
  cases hu.symm.trans h
  exact hf

theorem CommandFrame.cfg_eq {s t : State} (h : CommandFrame s t) : t.cfg = s.cfg := by rw [h]
theorem CommandFrame.host_eq {s t : State} (h : CommandFrame s t) : t.host = s.host := by rw [h]
theorem CommandFrame.bench_eq {s t : State} (h : CommandFrame s t) : t.bench = s.bench := by rw [h]
theorem CommandFrame.event_eq {s t : State} (h : CommandFrame s t) : t.out.event = s.out.event := by rw [h]

theorem HandlerFrame.cfg_eq {s t : State} (h : HandlerFrame s t) : t.cfg = s.cfg := by rw [h]
theorem HandlerFrame.host_eq {s t : State} (h : HandlerFrame s t) : t.host = s.host := by rw [h]
theorem HandlerFrame.bench_eq {s t : State} (h : HandlerFrame s t) : t.bench = s.bench := by rw [h]

/-- Settles O43: by `CommandEffect.of_busy`, only `SWITCH` can have changed. -/
theorem busyPadIsTheEngines : Obligations.BusyPadIsTheEngines := by
  intro w s t hb hw h
  have hsw := (runWord_effect h).of_busy hb fun hd => hw (Option.some.inj hd)
  rw [hsw]
  exact ⟨rfl, rfl, hb⟩

/-! ## What the engine's step does -/

/-- The busy states with their handlers: the codes 1 to 19 (R84, R40). -/
inductive BusyHandler : BitVec 5 → Instr → Prop
  | mpingStart : BusyHandler cMpingStart .mpingStart
  | mpingEnd : BusyHandler cMpingEnd .mpingEnd
  | waitSping : BusyHandler cWaitSping .waitSping
  | spingStart : BusyHandler cSpingStart .spingStart
  | spingEnd : BusyHandler cSpingEnd .spingEnd
  | requestCtrl : BusyHandler cRequestCtrl .requestCtrl
  | startTransfer : BusyHandler cStartTransfer .startTransfer
  | sendData : BusyHandler cSendData .sendData
  | endTransfer : BusyHandler cEndTransfer .endTransfer
  | sendEndMping : BusyHandler cSendEndMping .sendEndMping
  | waitData : BusyHandler cWaitData .waitData
  | recvDataStart : BusyHandler cRecvDataStart .recvDataStart
  | recvDataEnd : BusyHandler cRecvDataEnd .recvDataEnd
  | sendCfmMpingStart : BusyHandler cSendCfmMpingStart .sendCfmMpingStart
  | sendCfmMpingEnd : BusyHandler cSendCfmMpingEnd .sendCfmMpingEnd
  | waitCfmSping : BusyHandler cWaitCfmSping .waitCfmSping
  | recvCfmSpingStart : BusyHandler cRecvCfmSpingStart .recvCfmSpingStart
  | recvCfmSpingEnd : BusyHandler cRecvCfmSpingEnd .recvCfmSpingEnd
  | finish : BusyHandler cFinish .finish

theorem busyHandler_of_decodeState {c : BitVec 5} {i : Instr} (hb : busyCode c = true) (hi : decodeState c = some i) :
    BusyHandler c i := by
  have hle : c.toNat ≤ 21 := (decodeState_isSome_iff c).1 (by rw [hi]; rfl)
  rcases state_cases hle with rfl | rfl | rfl | rfl | rfl | rfl | rfl | rfl | rfl | rfl | rfl | rfl | rfl | rfl | rfl | rfl
    | rfl | rfl | rfl | rfl | rfl | rfl
  all_goals try (cases hi; constructor)
  all_goals exact absurd hb (by decide)

/-- The handler of a state in which the block is not busy does nothing (R113). -/
theorem exec_of_rest {s : State} {i : Instr} (hb : s.eng.busy = false) (hi : decodeState s.eng.state = some i) :
    exec i s = .next s := by
  rcases (busy_eq_false_iff s.eng).1 hb with hs | hs | hs <;> rw [hs] at hi <;> cases hi <;> rfl

/-- All that the engine's step can do (R112): the tick is counted down, and a due handler runs. -/
theorem engineTick_cases {s t : State} (h : engineTick s = .next t) :
    (s.eng.busy = false ∧ t = s) ∨ (s.eng.busy = true ∧ s.eng.countDown.due = false ∧ t = { s with eng := s.eng.countDown })
      ∨ ∃ i, BusyHandler s.eng.state i ∧ exec i { s with eng := s.eng.countDown } = .next t := by
  cases hi : decodeState s.eng.state with
  | none => rw [engineTick_of_none hi] at h; cases h
  | some i =>
    rw [engineTick_eq hi] at h
    cases hb : s.eng.busy with
    | false =>
      rw [countDown_of_rest hb, if_pos (due_of_rest hb), show ({ s with eng := s.eng } : State) = s from rfl,
        exec_of_rest hb hi] at h
      cases h
      exact .inl ⟨rfl, rfl⟩
    | true =>
      cases hd : s.eng.countDown.due with
      | false => exact .inr (.inl ⟨rfl, rfl, by simpa [hd] using h.symm⟩)
      | true => exact .inr (.inr ⟨i, busyHandler_of_decodeState hb hi, by simpa [hd] using h⟩)

/-- How the handler of a busy state leaves the system: the byte stands, and either the handshake goes on without an event, or it
is over with its event (R25, R36). -/
structure HandlerExit (s t : State) : Prop where
  byte_eq : t.eng.pendingByte = s.eng.pendingByte
  parity_eq : t.eng.parity = s.eng.parity
  event_of : (t.eng.busy = true ∧ t.out.event = s.out.event) ∨ (t.eng.state = cOk ∧ t.out.event = .done)
    ∨ (t.eng.state = cError ∧ t.out.event = .error)

theorem HandlerExit.goOn {s : State} {f : Engine → Engine} (hb : (f s.eng).busy = true)
    (hbyte : (f s.eng).pendingByte = s.eng.pendingByte) (hpar : (f s.eng).parity = s.eng.parity) :
    HandlerExit s (s.mapEng f) := ⟨hbyte, hpar, .inl ⟨hb, rfl⟩⟩

theorem lineWrite_exit {s t : State} {l : Level} {k : Engine → Engine} (h : lineWrite l k s = .next t)
    (hb : (k { s.eng with dout := l }).busy = true)
    (hbyte : (k { s.eng with dout := l }).pendingByte = s.eng.pendingByte)
    (hpar : (k { s.eng with dout := l }).parity = s.eng.parity) : HandlerExit s t := by
  obtain ⟨-, rfl⟩ := lineWrite_eq_next.1 h
  exact .goOn (f := fun e => k { e with dout := l }) hb hbyte hpar

theorem raiseSpingError_exit (k : BitVec 3) (p : Bool) (s : State) : HandlerExit s (raiseSpingError k p s) :=
  ⟨rfl, rfl, .inr (.inr ⟨rfl, rfl⟩)⟩

theorem spingWait_exit {s t : State} {m : BitVec 5} {p : Bool} (h : spingWait m p s = .next t) (hb : s.eng.busy = true)
    (hm : busyCode m = true) : HandlerExit s t := by
  cases hd : s.eng.dir with
  | output => rw [spingWait_of_output hd] at h; cases h
  | input =>
    cases hl : s.lineIn with
    | high => rw [spingWait_of_high hd hl] at h; cases h; exact ⟨rfl, rfl, .inl ⟨hm, rfl⟩⟩
    | low =>
      rw [spingWait_of_low hd hl] at h
      split at h <;> cases h
      · exact ⟨rfl, rfl, .inr (.inr ⟨rfl, rfl⟩)⟩
      · exact ⟨rfl, rfl, .inl ⟨hb, rfl⟩⟩

theorem spingMeasure_exit {s t : State} {m : BitVec 5} {p : Bool} (h : spingMeasure m p s = .next t) (hb : s.eng.busy = true)
    (hm : busyCode m = true) : HandlerExit s t := by
  cases hd : s.eng.dir with
  | output => rw [spingMeasure_of_output hd] at h; cases h
  | input =>
    cases hl : s.lineIn with
    | high =>
      rw [spingMeasure_of_high hd hl] at h
      split at h <;> cases h
      · exact ⟨rfl, rfl, .inr (.inr ⟨rfl, rfl⟩)⟩
      · exact ⟨rfl, rfl, .inl ⟨hb, rfl⟩⟩
    | low =>
      rw [spingMeasure_of_low hd hl] at h
      split at h <;> cases h
      · exact raiseSpingError_exit _ _ _
      · exact ⟨rfl, rfl, .inl ⟨hm, rfl⟩⟩

/-- The shape of the three states that play a sequence: the next state after the last element, else the next element. -/
theorem lineWrite_playing_exit {s t : State} {l : Level} {last : Engine → Prop} [DecidablePred last] {c : BitVec 5}
    {following : Engine → BitVec 8} {d : Nat}
    (h : lineWrite l (fun e => if last e then (e.setPhase 0).goTo c d else (e.setPhase (following e)).stay d) s = .next t)
    (hb : s.eng.busy = true) (hc : busyCode c = true) : HandlerExit s t := by
  obtain ⟨-, rfl⟩ := lineWrite_eq_next.1 h
  dsimp only
  split
  · exact ⟨rfl, rfl, .inl ⟨hc, rfl⟩⟩
  · exact ⟨rfl, rfl, .inl ⟨hb, rfl⟩⟩

/-- Every handler of a busy state, whatever the registers, if it answers a next state at all. -/
theorem handler_exit {s t : State} {i : Instr} (hi : BusyHandler s.eng.state i) (h : exec i s = .next t) :
    HandlerExit s t := by
  generalize hc : s.eng.state = c at hi
  have busy_of (hb : busyCode c = true) : s.eng.busy = true := by rw [Engine.busy, hc]; exact hb
  cases hi with
  | mpingStart => cases h; exact .goOn rfl rfl rfl
  | mpingEnd => exact lineWrite_exit h rfl rfl rfl
  | waitSping => cases h; exact .goOn rfl rfl rfl
  | spingStart => exact spingWait_exit h (busy_of rfl) rfl
  | spingEnd => exact spingMeasure_exit h (busy_of rfl) rfl
  | requestCtrl => cases h; exact .goOn rfl rfl rfl
  | startTransfer =>
    simp only [exec, execStartTransfer, withPulse] at h
    split at h
    next => exact lineWrite_playing_exit (following := fun _ => 1) h (busy_of rfl) rfl
    next => cases h
  | sendData =>
    simp only [exec, execSendData, withDataBit] at h
    split at h
    next => exact lineWrite_playing_exit h (busy_of rfl) rfl
    next => cases h
  | endTransfer =>
    simp only [exec, execEndTransfer, withPulse] at h
    split at h
    next => exact lineWrite_playing_exit h (busy_of rfl) rfl
    next => cases h
  | sendEndMping =>
    simp only [exec, execSendEndMping] at h
    split at h
    next => exact lineWrite_exit h (busy_of rfl) rfl rfl
    next => exact lineWrite_exit h rfl rfl rfl
  | waitData => cases h; exact .goOn rfl rfl rfl
  | recvDataStart => cases h; exact .goOn rfl rfl rfl
  | recvDataEnd => cases h; exact .goOn rfl rfl rfl
  | sendCfmMpingStart => cases h; exact .goOn rfl rfl rfl
  | sendCfmMpingEnd => exact lineWrite_exit h rfl rfl rfl
  | waitCfmSping => cases h; exact .goOn rfl rfl rfl
  | recvCfmSpingStart => exact spingWait_exit h (busy_of rfl) rfl
  | recvCfmSpingEnd => exact spingMeasure_exit h (busy_of rfl) rfl
  | finish =>
    simp only [exec, execFinish] at h
    split at h
    next => cases h; exact ⟨rfl, rfl, .inr (.inl ⟨rfl, rfl⟩)⟩
    next => cases h; exact ⟨rfl, rfl, .inl ⟨rfl, rfl⟩⟩

theorem countDown_busy (e : Engine) : e.countDown.busy = e.busy := by rw [Engine.busy, countDown_state, Engine.busy]

/-- Counting down touches `TIMER` only. -/
theorem countDown_frame (e : Engine) : e.countDown = { e with timer := e.countDown.timer } := by
  unfold Engine.countDown
  split <;> rfl

theorem countDown_pendingByte (e : Engine) : e.countDown.pendingByte = e.pendingByte := by rw [countDown_frame]

theorem countDown_parity (e : Engine) : e.countDown.parity = e.parity := by rw [countDown_frame]

/-- A busy engine's step, whether a handler is due in it or not. -/
theorem engineTick_exit {s t : State} (hb : s.eng.busy = true) (h : engineTick s = .next t) : HandlerExit s t := by
  rcases engineTick_cases h with ⟨hr, -⟩ | ⟨-, -, rfl⟩ | ⟨i, hi, hx⟩
  · simp [hb] at hr
  · exact ⟨countDown_pendingByte _, countDown_parity _, .inl ⟨(countDown_busy _).trans hb, rfl⟩⟩
  · have hi' : BusyHandler s.eng.countDown.state i := by rwa [countDown_state]
    obtain ⟨hbyte, hpar, hev⟩ := handler_exit (s := { s with eng := s.eng.countDown }) hi' hx
    exact ⟨hbyte.trans (countDown_pendingByte _), hpar.trans (countDown_parity _), hev⟩

/-- The engine's step of a block that is not busy is none (R112, R113). -/
theorem engineTick_of_rest {s t : State} (hb : s.eng.busy = false) (h : engineTick s = .next t) : t = s := by
  rcases engineTick_cases h with ⟨-, rfl⟩ | ⟨hb', -, -⟩ | ⟨i, hi, -⟩
  · rfl
  · simp [hb] at hb'
  · have : busyCode s.eng.state = true := by generalize s.eng.state = c at hi; cases hi <;> rfl
    exact absurd (hb.symm.trans this) nofun

/-- Settles O48: by `HandlerExit.event_of` the event names the terminal state entered; a word's frame leaves the event out. -/
theorem eventExactlyAtTerminalEntry : Obligations.EventExactlyAtTerminalEntry := by
  refine ⟨fun s t h0 h => ?_, fun w s t h => (commandFrame_of_runWord h).event_eq⟩
  cases hb : s.eng.busy with
  | false => simp [engineTick_of_rest hb h, h0]
  | true =>
    rcases (engineTick_exit hb h).event_of with ⟨ht, hev⟩ | ⟨hst, hev⟩ | ⟨hst, hev⟩
    · have hne := ((busy_eq_true_iff t.eng).1 ht).2
      simpa [hev, h0] using hne
    · simp [hev, hst]
    · simp [hev, hst]

/-! ## The byte while the block is busy -/

/-- An ordinary tick in which the port has no `DETACH`. -/
theorem ordinaryTick_keeps_byte {s t : State} (hb : s.eng.busy = true)
    (hw : (hostPresent s.clearOut).1 ≠ some wordDetach) (h : ordinaryTick s = .next t) :
    t.eng.pendingByte = s.eng.pendingByte ∧ t.eng.parity = s.eng.parity := by
  obtain ⟨u, v, hu, hv, rfl⟩ := ordinaryTick_eq_next.1 h
  have heng : (hostPresent s.clearOut).2.eng = s.eng := (hostPresent_frame s.clearOut).1
  have heff := runWord_effect hu
  rw [heng] at heff
  have hsw := heff.of_busy hb hw
  have hbu : u.eng.busy = true := by rw [hsw]; exact hb
  obtain ⟨hbyte, hpar, -⟩ := engineTick_exit hbu hv
  rw [hsw] at hbyte hpar
  exact ⟨hbyte, hpar⟩

/-- A bench symbol that answers a next state was decoded and played; the block's own ends at the safe default (R133, log 15). -/
theorem benchStep_eq_next {w : WireWord} {s t : State} (h : benchStep w s = .next t) :
    ∃ i u, decodeWire w = some i ∧ exec i { s.clearOut with bench := none } = .next u
      ∧ ((w.slot = .slavePing ∧ t = u) ∨ (w.slot ≠ .slavePing ∧ t = u.mapEng (·.lineOutput .low))) := by
  unfold benchStep at h
  split at h
  next => cases h
  next i hi =>
    obtain ⟨u, hu, ht⟩ := andThen_eq_next.1 h
    refine ⟨i, u, hi, hu, ?_⟩
    split at ht
    next hw => cases ht; exact .inl ⟨hw, rfl⟩
    next hw => cases ht; exact .inr ⟨hw, rfl⟩

/-- Of the engine a bench symbol touches the pad alone; it leaves the configuration and the host. -/
theorem benchStep_frame {w : WireWord} {s t : State} (h : benchStep w s = .next t) :
    t.cfg = s.cfg ∧ t.host = s.host ∧ t.eng = { s.eng with dir := t.eng.dir, dout := t.eng.dout } := by
  obtain ⟨i, u, hi, hu, ht⟩ := benchStep_eq_next h
  obtain ⟨hcfg, hhost, -, -, heng⟩ := symbol_frame hi hu
  rcases ht with ⟨-, rfl⟩ | ⟨-, rfl⟩
  · exact ⟨hcfg, hhost, heng⟩
  · exact ⟨hcfg, hhost, by rw [State.mapEng_eng, heng]; rfl⟩

/-- Settles O44: an ordinary tick keeps the byte, and a bench symbol touches the pad only. -/
theorem pendingByteStandsWhileBusy : Obligations.PendingByteStandsWhileBusy := by
  intro s t hb hr hw h
  obtain ⟨-, ⟨hr', -⟩ | ⟨-, -, ⟨-, ht⟩ | ⟨w, -, -, ht⟩⟩⟩ := step_eq_next h
  · simp [hr] at hr'
  · exact ordinaryTick_keeps_byte hb hw ht
  · obtain ⟨-, -, heng⟩ := benchStep_frame ht
    rw [heng]
    exact ⟨rfl, rfl⟩

/-! ## The status registers: each is two fields, the higher one first, widened to 32 bits -/

section
variable {m n : Nat} (x : BitVec m) (y : BitVec n)

theorem getLsbD_of_fields (i : Nat) :
    ((x ++ y).setWidth 32).getLsbD i = (decide (i < 32) && if i < n then y.getLsbD i else x.getLsbD (i - n)) := by
  rw [BitVec.getLsbD_setWidth, BitVec.getLsbD_append]

theorem lowField_eq (h : m + n ≤ 32) : ((x ++ y).setWidth 32).extractLsb' 0 n = y := by
  refine BitVec.eq_of_getLsbD_eq fun i hi => ?_
  rw [BitVec.getLsbD_extractLsb', getLsbD_of_fields]
  simp [hi, show i < 32 by omega]

theorem highField_eq (h : m + n ≤ 32) : ((x ++ y).setWidth 32).extractLsb' n m = x := by
  refine BitVec.eq_of_getLsbD_eq fun i hi => ?_
  rw [BitVec.getLsbD_extractLsb', getLsbD_of_fields]
  simp [hi, show n + i < 32 by omega]

theorem reservedField_eq (k : Nat) : ((x ++ y).setWidth 32).extractLsb' (m + n) k = 0 := by
  refine BitVec.eq_of_getLsbD_eq fun i hi => ?_
  rw [BitVec.getLsbD_extractLsb', getLsbD_of_fields, if_neg (by omega), BitVec.getLsbD_of_ge x _ (by omega)]
  simp

end

/-- The flags of `STATUS` stand above the state code, from bit 5 to bit 12 (R44). -/
theorem statusWord_getLsbD (e : Engine) {i : Nat} (hi : 5 ≤ i) (hi' : i ≤ 12) :
    (statusWord e).getLsbD i = [e.busy, e.done, e.err, e.dir.toBool, e.dout.toBool, (pinState e.dir).toBool, e.switch,
      e.parity].getD (i - 5) false := by
  simp only [statusWord, BitVec.getLsbD_setWidth, BitVec.getLsbD_append]
  interval_cases i <;> simp

theorem regRead_eq_none {n : BitVec 4} (h : 5 ≤ n.toNat) (e : Engine) : regRead e n = none := by
  unfold regRead
  split
  case h_6 => rfl
  all_goals omega

theorem Dir.toBool_eq_true_iff (d : Dir) : d.toBool = true ↔ d = .output := by cases d <;> decide
theorem pinState_toBool_eq_true_iff (d : Dir) : (pinState d).toBool = true ↔ d = .output := by cases d <;> decide
theorem Level.toBool_eq_true_iff (l : Level) : l.toBool = true ↔ l = .high := by cases l <;> decide

/-- Settles O11: the words' fields, high, low and reserved, and the flags of `STATUS` by `statusWord_getLsbD`. -/
theorem statusRegisterFields : Obligations.StatusRegisterFields := by
  refine ⟨by decide, fun e => ⟨statusWord e, errorWord e, countWord e, dataWord e, rfl, rfl, rfl, rfl, rfl,
    fun n hn => regRead_eq_none hn e, ?_⟩⟩
  have flag {i : Nat} (h : 5 ≤ i) (h' : i ≤ 12) := statusWord_getLsbD e h h'
  have status : (statusWord e).extractLsb' 0 5 = e.state ∧ (statusWord e).extractLsb' 13 19 = 0 :=
    ⟨lowField_eq (m := 8) _ _ (by decide), reservedField_eq (m := 8) _ _ 19⟩
  refine ⟨status.1, ?_, flag (i := 6) (by decide) (by decide), flag (i := 7) (by decide) (by decide), ?_, ?_, ?_,
    flag (i := 11) (by decide) (by decide), flag (i := 12) (by decide) (by decide), status.2,
    lowField_eq _ _ (by decide), ?_, reservedField_eq (m := 1) (n := 3) _ _ 28,
    lowField_eq _ _ (by decide), highField_eq _ _ (by decide), reservedField_eq (m := 8) (n := 8) _ _ 16,
    lowField_eq _ _ (by decide), ?_, reservedField_eq (m := 1) (n := 8) _ _ 23⟩
  · rw [flag (by decide) (by decide)]
    exact busy_eq_true_iff e
  · rw [flag (by decide) (by decide)]
    exact Dir.toBool_eq_true_iff e.dir
  · rw [flag (by decide) (by decide)]
    exact Level.toBool_eq_true_iff e.dout
  · rw [flag (by decide) (by decide)]
    exact pinState_toBool_eq_true_iff e.dir
  · rw [errorWord, getLsbD_of_fields]
    simp
  · rw [dataWord, getLsbD_of_fields]
    simp

/-- Settles O51: the values are those of `Engine.reset`, which `DETACH` writes too; `rst` gives a reset tick. -/
theorem resetGivesTheResetState : Obligations.ResetGivesTheResetState := by
  refine ⟨rfl, rfl, rfl, fun c => ⟨rfl, rfl⟩, fun s t h => ?_, fun s hc hr => ?_⟩
  · cases h; rfl
  · exact ⟨resetTick s, step_of_rst hc hr, rfl, rfl, rfl⟩

/-! ## The invariant where a tick boundary is left -/

/-- The registers as the handler of a busy state finds them: they met the invariant with one tick to go. -/
structure Engine.DueInv (c : Cfg) (e : Engine) : Prop where
  busy : e.busy = true
  inv : ({ e with timer := 1 } : Engine).Inv c

namespace Engine.DueInv

variable {c : Cfg} {e : Engine}

theorem dir_eq (h : e.DueInv c) : e.dir = dirAt e.state := h.inv.dir_eq
theorem round_lt (h : e.DueInv c) : e.roundCount.toNat < c.afcCommCnt := h.inv.round_lt h.busy
theorem phase_ok (h : e.DueInv c) : phaseOk c e := h.inv.phase_ok

theorem done_eq_false (h : e.DueInv c) : e.done = false := by
  by_contra hd
  exact ((busy_eq_true_iff e).1 h.busy).2.1 (h.inv.done_of (Bool.not_eq_false _ ▸ hd)).1

theorem err_eq_false (h : e.DueInv c) : e.err = false := by
  by_contra hd
  have hr : e.busy = false := h.inv.err_of (Bool.not_eq_false _ ▸ hd)
  exact absurd (hr.symm.trans h.busy) nofun

/-- A handler that goes on to a busy state (R113) need only find its delay, its direction and its `PHASE_COUNTER` right. -/
theorem goOn (h : e.DueInv c) (hc : cfgWf c = true) {st : BitVec 5} {d : Nat} {p : BitVec 8} {dr : Dir} (l : Level)
    (hd : 1 ≤ d ∧ d ≤ timerMax c)
    (hp : phaseOk c { e with state := st, timer := BitVec.ofNat 32 d, phaseCounter := p, dir := dr, dout := l })
    (hb : busyCode st = true ∧ st.toNat ≤ 21 := by decide) (hdr : dr = dirAt st := by rfl) :
    ({ e with state := st, timer := BitVec.ofNat 32 d, phaseCounter := p, dir := dr, dout := l } : Engine).Inv c := by
  have htimer : (BitVec.ofNat 32 d).toNat = d := by
    have := timerMax_lt hc
    rw [BitVec.toNat_ofNat]; omega
  have hbusy : busyCode st ≠ false := by simp [hb.1]
  have hdone : e.done ≠ true := by simp [h.done_eq_false]
  have herr : e.err ≠ true := by simp [h.err_eq_false]
  exact {
    parity_eq := h.inv.parity_eq
    round_le := h.inv.round_le
    round_lt := fun _ => h.round_lt
    rest_timer := fun hr => absurd hr hbusy
    rest_dout := fun hr => absurd hr hbusy
    dir_eq := hdr
    state_le := hb.2
    err_eq := h.inv.err_eq
    error_le := h.inv.error_le
    errPhase_of := h.inv.errPhase_of
    done_of := fun hd => absurd hd hdone
    error_of := fun (hs : st = cError) => absurd (hs ▸ hb.1) (by decide)
    err_of := fun he => absurd he herr
    timer_pos := fun _ => hd.1.trans_eq htimer.symm
    timer_le := htimer.trans_le hd.2
    phase_ok := hp }

/-- A handler that stays in its state (R113). -/
theorem stayIn (h : e.DueInv c) (hc : cfgWf c = true) {d : Nat} {p : BitVec 8} (l : Level) (hd : 1 ≤ d ∧ d ≤ timerMax c)
    (hp : phaseOk c { e with timer := BitVec.ofNat 32 d, phaseCounter := p, dout := l }) :
    ({ e with timer := BitVec.ofNat 32 d, phaseCounter := p, dout := l } : Engine).Inv c :=
  h.goOn hc l hd hp ⟨h.busy, h.inv.state_le⟩ h.dir_eq

/-- The error entry (R255), from any phase count within its bound. -/
theorem enterError (h : e.DueInv c) {code : BitVec 3} {p : BitVec 8} (ph : Bool) (hp : p.toNat ≤ phaseMax c)
    (hcode : code ≠ 0 ∧ code.toNat ≤ 3 := by decide) :
    (({ e with phaseCounter := p } : Engine).enterError code ph).Inv c := by
  have herr : errOf code = true := (errOf_eq_true_iff code).2 hcode.1
  have hdone : e.done ≠ true := by simp [h.done_eq_false]
  exact {
    parity_eq := h.inv.parity_eq
    round_le := h.inv.round_le
    round_lt := nofun
    rest_timer := fun _ => rfl
    rest_dout := fun _ => rfl
    dir_eq := rfl
    state_le := (by decide : cError.toNat ≤ 21)
    err_eq := rfl
    error_le := hcode.2
    errPhase_of := fun _ => herr
    done_of := fun hd => absurd hd hdone
    error_of := fun _ => herr
    err_of := fun _ => rfl
    timer_pos := nofun
    timer_le := Nat.zero_le _
    phase_ok := hp }

/-- The same handshake with another round count (R186). -/
theorem withRound (h : e.DueInv c) {n : BitVec 8} (hn : n.toNat < c.afcCommCnt) :
    ({ e with roundCount := n } : Engine).DueInv c where
  busy := h.busy
  inv := { h.inv with
    round_le := hn.le
    round_lt := fun _ => hn
    done_of := fun hd => absurd (hd.symm.trans h.done_eq_false) nofun }

/-- After the last round the handshake is done (R186). -/
theorem finished (h : e.DueInv c) (hlast : (e.roundCount + 1).toNat = c.afcCommCnt) :
    ({ e.countRound with state := cOk, timer := 0, done := true } : Engine).Inv c where
  parity_eq := h.inv.parity_eq
  round_le := hlast.le
  round_lt := nofun
  rest_timer := fun _ => rfl
  rest_dout := fun _ => rfl
  dir_eq := rfl
  state_le := (by decide : cOk.toNat ≤ 21)
  err_eq := h.inv.err_eq
  error_le := h.inv.error_le
  errPhase_of := h.inv.errPhase_of
  done_of := fun _ => ⟨rfl, hlast⟩
  error_of := nofun
  err_of := fun _ => rfl
  timer_pos := nofun
  timer_le := Nat.zero_le _
  phase_ok := Nat.zero_le _

end Engine.DueInv

/-! ## Every due handler keeps the invariant -/

/-- The outcome is a next state, and its registers meet the invariant. -/
def NextMeetsInv (c : Cfg) (o : Outcome) : Prop := ∃ t, o = .next t ∧ t.eng.Inv c

/-- The fixed delays of R7 are at most the receive window's. -/
theorem fixedDelay_fits (c : Cfg) {d : Nat} (h : 1 ≤ d ∧ d ≤ 184 := by decide) : 1 ≤ d ∧ d ≤ timerMax c :=
  ⟨h.1, h.2.trans (recvDataTicks_le_timerMax c)⟩

theorem PulseFits.delay {c : Cfg} {p : Pulse} : PulseFits c p → 1 ≤ p.ticks ∧ p.ticks ≤ timerMax c :=
  fun ⟨hpos, _, hle⟩ => ⟨hpos, hle⟩

theorem lineWrite_meetsInv {c : Cfg} {s : State} {l : Level} {k : Engine → Engine} (hd : s.eng.dir = .output)
    (hk : (k { s.eng with dout := l }).Inv c) : NextMeetsInv c (lineWrite l k s) := ⟨_, lineWrite_of_output hd l k, hk⟩

theorem phaseCounter_succ_toNat {p : BitVec 8} (h : p.toNat < 255) : (p + 1).toNat = p.toNat + 1 := by bv_omega

theorem le_phaseMax {c : Cfg} {n : Nat} (h : n ≤ c.waitSpingCount ∨ n ≤ c.spingMaxUi + 1 ∨ n ≤ 8) : n ≤ phaseMax c := by
  simpa [phaseMax, or_assoc] using h

theorem phaseOk_of_wait {c : Cfg} {e : Engine} (h : e.state = cSpingStart ∨ e.state = cRecvCfmSpingStart) :
    phaseOk c e ↔ e.phaseCounter.toNat < c.waitSpingCount := by
  rcases h with h | h <;> simp only [phaseOk, h] <;> rfl

theorem phaseOk_of_measure {c : Cfg} {e : Engine} (h : e.state = cSpingEnd ∨ e.state = cRecvCfmSpingEnd) :
    phaseOk c e ↔ 1 ≤ e.phaseCounter.toNat ∧ e.phaseCounter.toNat ≤ c.spingMaxUi := by
  rcases h with h | h <;> simp only [phaseOk, h] <;> rfl

section
variable {s : State} (hwf : cfgWf s.cfg = true) (h : s.eng.DueInv s.cfg)
include hwf h

/-- The two wait windows (R171, R184): HIGH starts the measurement, LOW counts up to the timeout. -/
theorem spingWait_meetsInv {m : BitVec 5} (ph : Bool)
    (hs : s.eng.state = cSpingStart ∧ m = cSpingEnd ∨ s.eng.state = cRecvCfmSpingStart ∧ m = cRecvCfmSpingEnd) :
    NextMeetsInv s.cfg (spingWait m ph s) := by
  obtain ⟨-, hwait, hmin, hminmax, -, -⟩ := cfgWf_bounds hwf
  have hd : s.eng.dir = .input := by
    rw [h.dir_eq]
    rcases hs with ⟨hst, -⟩ | ⟨hst, -⟩ <;> rw [hst] <;> rfl
  have hst : s.eng.state = cSpingStart ∨ s.eng.state = cRecvCfmSpingStart := hs.imp And.left And.left
  have hp := (phaseOk_of_wait hst).1 h.phase_ok
  have hsucc := phaseCounter_succ_toNat (hp.trans_le hwait)
  cases hl : s.lineIn with
  | high =>
    have hmax : 1 ≤ s.cfg.spingMaxUi := hmin.trans hminmax
    refine ⟨_, spingWait_of_high hd hl m ph, ?_⟩
    rcases hs with ⟨-, rfl⟩ | ⟨-, rfl⟩
    · exact h.goOn hwf _ (fixedDelay_fits _) ⟨le_rfl, hmax⟩ (hdr := hd)
    · exact h.goOn hwf _ (fixedDelay_fits _) ⟨le_rfl, hmax⟩ (hdr := hd)
  | low =>
    rw [spingWait_of_low hd hl]
    split
    next => exact ⟨_, rfl, h.enterError ph (le_phaseMax (.inl (by omega)))⟩
    next hlt =>
      have hp' : (s.eng.phaseCounter + 1).toNat < s.cfg.waitSpingCount := Nat.lt_of_not_le hlt
      exact ⟨_, rfl, h.stayIn hwf _ (fixedDelay_fits _) (Iff.mpr (phaseOk_of_wait hst) hp')⟩

/-- The two measurements (R172, R185): HIGH counts up to too long, LOW ends in too short or the next phase. -/
theorem spingMeasure_meetsInv {v : BitVec 5} (ph : Bool)
    (hs : s.eng.state = cSpingEnd ∧ v = cRequestCtrl ∨ s.eng.state = cRecvCfmSpingEnd ∧ v = cFinish) :
    NextMeetsInv s.cfg (spingMeasure v ph s) := by
  obtain ⟨-, -, -, -, hmax, -⟩ := cfgWf_bounds hwf
  have hd : s.eng.dir = .input := by
    rw [h.dir_eq]
    rcases hs with ⟨hst, -⟩ | ⟨hst, -⟩ <;> rw [hst] <;> rfl
  have hst : s.eng.state = cSpingEnd ∨ s.eng.state = cRecvCfmSpingEnd := hs.imp And.left And.left
  have hp := (phaseOk_of_measure hst).1 h.phase_ok
  have hsucc := phaseCounter_succ_toNat (p := s.eng.phaseCounter) (by omega)
  cases hl : s.lineIn with
  | high =>
    rw [spingMeasure_of_high hd hl]
    split
    next => exact ⟨_, rfl, h.enterError ph (le_phaseMax (.inr (.inl (by omega))))⟩
    next hle =>
      have hp' : 1 ≤ (s.eng.phaseCounter + 1).toNat ∧ (s.eng.phaseCounter + 1).toNat ≤ s.cfg.spingMaxUi := by omega
      exact ⟨_, rfl, h.stayIn hwf _ (fixedDelay_fits _) (Iff.mpr (phaseOk_of_measure hst) hp')⟩
  | low =>
    rw [spingMeasure_of_low hd hl]
    split
    next => exact ⟨_, rfl, h.enterError (p := s.eng.phaseCounter) ph (le_phaseMax (.inr (.inl (by omega))))⟩
    next hmin =>
      have hp' : s.cfg.spingMinUi ≤ s.eng.phaseCounter.toNat ∧ s.eng.phaseCounter.toNat ≤ s.cfg.spingMaxUi := by omega
      rcases hs with ⟨-, rfl⟩ | ⟨-, rfl⟩
      · exact ⟨_, rfl, h.goOn hwf _ (fixedDelay_fits _) hp' (hdr := hd)⟩
      · exact ⟨_, rfl, h.goOn hwf _ (fixedDelay_fits _) hp' (hdr := hd)⟩

theorem startTransfer_meetsInv (hs : s.eng.state = cStartTransfer) : NextMeetsInv s.cfg (execStartTransfer s) := by
  have hd : s.eng.dir = .output := by rw [h.dir_eq, hs]; rfl
  have hp : s.eng.phaseCounter.toNat ≤ 1 := by simpa [phaseOk, hs] using h.phase_ok
  obtain ⟨hlen, hfit⟩ := startMark_fits hwf (s.eng.pendingByte.getLsbD 7)
  have hlt : s.eng.phaseCounter.toNat < (startMark s.cfg (s.eng.pendingByte.getLsbD 7)).length := by omega
  rw [execStartTransfer, withPulse_of_some (List.getElem?_eq_getElem hlt)]
  have hdelay := (hfit _ (List.getElem_mem hlt)).delay
  refine lineWrite_meetsInv hd ?_
  dsimp only
  split
  · exact h.goOn hwf _ hdelay (Nat.zero_le 7) (hdr := hd)
  · exact h.stayIn hwf _ hdelay (by simp [phaseOk, hs])

theorem sendData_meetsInv (hs : s.eng.state = cSendData) : NextMeetsInv s.cfg (execSendData s) := by
  have hd : s.eng.dir = .output := by rw [h.dir_eq, hs]; rfl
  have hp : s.eng.phaseCounter.toNat ≤ 7 := by simpa [phaseOk, hs] using h.phase_ok
  have hlen := (endSeq_fits hwf s.eng.parity).1
  rw [execSendData, withDataBit_of_le hp]
  refine lineWrite_meetsInv hd ?_
  dsimp only
  split
  next => exact h.goOn hwf _ (fixedDelay_fits _) (show 0 < (endSeq s.cfg s.eng.parity).length by omega) (hdr := hd)
  next hne =>
    have hp' : (s.eng.phaseCounter + 1).toNat ≤ 7 := by bv_omega
    exact h.stayIn hwf _ (fixedDelay_fits _) (by simpa [phaseOk, hs] using hp')

theorem endTransfer_meetsInv (hs : s.eng.state = cEndTransfer) : NextMeetsInv s.cfg (execEndTransfer s) := by
  have hd : s.eng.dir = .output := by rw [h.dir_eq, hs]; rfl
  have hp : s.eng.phaseCounter.toNat < (endSeq s.cfg s.eng.parity).length := by simpa [phaseOk, hs] using h.phase_ok
  obtain ⟨-, hlen, hfit⟩ := endSeq_fits hwf s.eng.parity
  rw [execEndTransfer, withPulse_of_some (List.getElem?_eq_getElem hp)]
  have hdelay := (hfit _ (List.getElem_mem hp)).delay
  refine lineWrite_meetsInv hd ?_
  dsimp only
  split
  next => exact h.goOn hwf _ hdelay (Nat.zero_le 1) (hdr := hd)
  next hne =>
    have hp' : (s.eng.phaseCounter + 1).toNat < (endSeq s.cfg s.eng.parity).length := by
      rw [phaseCounter_succ_toNat (by omega)]; omega
    exact h.stayIn hwf _ hdelay (by simpa [phaseOk, hs] using hp')

theorem sendEndMping_meetsInv (hs : s.eng.state = cSendEndMping) : NextMeetsInv s.cfg (execSendEndMping s) := by
  have hd : s.eng.dir = .output := by rw [h.dir_eq, hs]; rfl
  unfold execSendEndMping
  split
  · refine lineWrite_meetsInv hd (h.stayIn hwf _ (fixedDelay_fits _) ?_)
    simp [phaseOk, hs]
  · exact lineWrite_meetsInv hd (h.goOn hwf _ (fixedDelay_fits _) rfl (hdr := hd))

theorem finish_meetsInv : NextMeetsInv s.cfg (execFinish s) := by
  obtain ⟨-, -, -, -, -, -, hcnt, hgap, -⟩ := cfgWf_bounds hwf
  have hround := h.round_lt
  have hsucc : (s.eng.roundCount + 1).toNat = s.eng.roundCount.toNat + 1 := by bv_omega
  unfold execFinish
  dsimp only
  split
  next hge =>
    rw [State.mapEng_eng, Engine.countRound_roundCount] at hge
    exact ⟨_, rfl, h.finished (by omega)⟩
  next hlt =>
    rw [State.mapEng_eng, Engine.countRound_roundCount] at hlt
    exact ⟨_, rfl, (h.withRound (Nat.lt_of_not_le hlt)).goOn hwf _ ⟨hgap, roundGapTicks_le_timerMax _⟩ rfl⟩

/-- R41 for the handlers: none stops, and each leaves the invariant. -/
theorem handler_meetsInv {i : Instr} (hi : BusyHandler s.eng.state i) : NextMeetsInv s.cfg (exec i s) := by
  generalize hs : s.eng.state = st at hi
  have hd : s.eng.dir = dirAt st := by rw [h.dir_eq, hs]
  have hp := h.phase_ok
  cases hi with
  | mpingStart => exact ⟨_, rfl, h.goOn hwf _ (fixedDelay_fits _) (by simpa [phaseOk, hs] using hp)⟩
  | mpingEnd => exact lineWrite_meetsInv hd (h.goOn hwf _ (fixedDelay_fits _) (by simpa [phaseOk, hs] using hp) (hdr := hd))
  | waitSping => exact ⟨_, rfl, h.goOn hwf _ (fixedDelay_fits _) (cfgWf_bounds hwf).1⟩
  | spingStart => exact spingWait_meetsInv hwf h false (.inl ⟨hs, rfl⟩)
  | spingEnd => exact spingMeasure_meetsInv hwf h false (.inl ⟨hs, rfl⟩)
  | requestCtrl => exact ⟨_, rfl, h.goOn hwf _ (fixedDelay_fits _) (Nat.zero_le 1)⟩
  | startTransfer => exact startTransfer_meetsInv hwf h hs
  | sendData => exact sendData_meetsInv hwf h hs
  | endTransfer => exact endTransfer_meetsInv hwf h hs
  | sendEndMping => exact sendEndMping_meetsInv hwf h hs
  | waitData => exact ⟨_, rfl, h.goOn hwf _ (fixedDelay_fits _) (by simpa [phaseOk, hs] using hp)⟩
  | recvDataStart => exact ⟨_, rfl, h.goOn hwf _ (fixedDelay_fits _) (by simpa [phaseOk, hs] using hp) (hdr := hd)⟩
  | recvDataEnd => exact ⟨_, rfl, h.goOn hwf _ (fixedDelay_fits _) (by simpa [phaseOk, hs] using hp)⟩
  | sendCfmMpingStart => exact ⟨_, rfl, h.goOn hwf _ (fixedDelay_fits _) (by simpa [phaseOk, hs] using hp)⟩
  | sendCfmMpingEnd =>
    exact lineWrite_meetsInv hd (h.goOn hwf _ (fixedDelay_fits _) (by simpa [phaseOk, hs] using hp) (hdr := hd))
  | waitCfmSping => exact ⟨_, rfl, h.goOn hwf _ (fixedDelay_fits _) (cfgWf_bounds hwf).1⟩
  | recvCfmSpingStart => exact spingWait_meetsInv hwf h true (.inr ⟨hs, rfl⟩)
  | recvCfmSpingEnd => exact spingMeasure_meetsInv hwf h true (.inr ⟨hs, rfl⟩)
  | finish => exact finish_meetsInv hwf h

end

/-! ## The command port keeps the invariant -/

theorem Engine.reset_inv (c : Cfg) : Engine.reset.Inv c where
  parity_eq := by decide
  round_le := Nat.zero_le _
  round_lt := nofun
  rest_timer := fun _ => rfl
  rest_dout := fun _ => rfl
  dir_eq := rfl
  state_le := by decide
  err_eq := rfl
  error_le := by decide
  errPhase_of := nofun
  done_of := nofun
  error_of := nofun
  err_of := nofun
  timer_pos := nofun
  timer_le := Nat.zero_le _
  phase_ok := rfl

/-- The registers between the command port and the engine's step: the invariant, or a handshake just launched (R205). -/
def Engine.PortInv (c : Cfg) (e : Engine) : Prop := e.Inv c ∨ (e.DueInv c ∧ e.timer = 0)

section
variable {c : Cfg} {e : Engine} (h : e.Inv c)
include h

theorem Engine.Inv.rest_dir (hr : e.busy = false) : e.dir = .output := by
  rw [h.dir_eq]
  rcases (busy_eq_false_iff e).1 hr with hs | hs | hs <;> rw [hs] <;> rfl

theorem Engine.Inv.loaded (hr : e.busy = false) (b : Byte) :
    ({ e with pendingByte := b, parity := Machine.parity b } : Engine).Inv c := by
  have hp := h.phase_ok
  refine { h with parity_eq := rfl, phase_ok := ?_ }
  rcases (busy_eq_false_iff e).1 hr with hs | hs | hs <;> simpa [phaseOk, hs] using hp

theorem Engine.Inv.launch_due (hwf : cfgWf c = true) (hr : e.busy = false) : e.launch.DueInv c := by
  obtain ⟨-, -, -, -, -, hcnt, -⟩ := cfgWf_bounds hwf
  exact {
    busy := rfl
    inv := {
      parity_eq := h.parity_eq
      round_le := Nat.zero_le _
      round_lt := fun _ => hcnt
      rest_timer := nofun
      rest_dout := nofun
      dir_eq := h.rest_dir hr
      state_le := (by decide : cMpingStart.toNat ≤ 21)
      err_eq := rfl
      error_le := Nat.zero_le _
      errPhase_of := nofun
      done_of := nofun
      error_of := nofun
      err_of := nofun
      timer_pos := fun _ => le_rfl
      timer_le := (fixedDelay_fits c (d := 1)).2
      phase_ok := rfl } }

theorem Engine.Inv.forceOk (hs : e.state = cError) : e.forceOk.Inv c := by
  have hr : e.busy = false := (busy_eq_false_iff e).2 (.inr (.inr hs))
  have hp := h.phase_ok
  refine { h with
    round_lt := nofun
    rest_timer := fun _ => h.rest_timer hr
    rest_dout := fun _ => h.rest_dout hr
    dir_eq := h.rest_dir hr
    state_le := (by decide : cOk.toNat ≤ 21)
    done_of := fun hd => absurd (hs.symm.trans (h.done_of hd).1) (by decide)
    error_of := nofun
    err_of := fun _ => rfl
    timer_pos := nofun
    phase_ok := ?_ }
  simpa [phaseOk, hs] using hp

/-- Every word leaves the invariant, but for a launched handshake, whose first handler is due at once (R112, R205). -/
theorem CommandEffect.portInv {w : Option (BitVec 16)} {e' : Engine} (hwf : cfgWf c = true) (hw : CommandEffect w e e') :
    e'.PortInv c := by
  cases hw with
  | switched b => exact .inl { h with phase_ok := h.phase_ok }
  | loaded b hr => exact .inl (h.loaded hr b)
  | launched hr => exact .inr ⟨h.launch_due hwf hr, rfl⟩
  | detached => exact .inl (Engine.reset_inv _)
  | forced hs => exact .inl (h.forceOk hs)

/-- The invariant while `TIMER` counts down to a later tick. -/
theorem Engine.Inv.waiting (hb : e.busy = true) (ht : 2 ≤ e.timer.toNat) :
    ({ e with timer := BitVec.ofNat 32 (e.timer.toNat - 1) } : Engine).Inv c := by
  have htimer : (BitVec.ofNat 32 (e.timer.toNat - 1)).toNat = e.timer.toNat - 1 := by bv_omega
  have hle := h.timer_le
  exact { h with
    rest_timer := fun hr => absurd (hr.symm.trans hb) nofun
    timer_pos := fun _ => show 1 ≤ (BitVec.ofNat 32 (e.timer.toNat - 1)).toNat by omega
    timer_le := show (BitVec.ofNat 32 (e.timer.toNat - 1)).toNat ≤ timerMax c by omega
    phase_ok := h.phase_ok }

end

/-! ## The engine's step keeps the invariant -/

theorem Engine.PortInv.state_le {c : Cfg} {e : Engine} (h : e.PortInv c) : e.state.toNat ≤ 21 := by
  rcases h with h | ⟨h, -⟩
  · exact h.state_le
  · exact h.inv.state_le

/-- `TIMER` at 1, or at 0 after `START`: this tick's count-down makes the handler due. -/
theorem Engine.PortInv.due {c : Cfg} {e : Engine} (h : e.PortInv c) (hb : e.busy = true) (ht : e.timer.toNat ≤ 1) :
    ({ e with timer := 0 } : Engine).DueInv c := by
  rcases h with h | ⟨h, -⟩
  · have hpos := h.timer_pos hb
    have h1 : e.timer = 1 := by bv_omega
    have he : ({ e with timer := 1 } : Engine) = e := by rw [← h1]
    exact ⟨hb, by rw [he]; exact h⟩
  · exact ⟨hb, h.inv⟩

/-- Where a tick is left to wait no handshake was just launched. -/
theorem Engine.PortInv.inv_of_two_le {c : Cfg} {e : Engine} (h : e.PortInv c) (ht : 2 ≤ e.timer.toNat) : e.Inv c := by
  rcases h with h | ⟨-, h0⟩
  · exact h
  · rw [h0] at ht; exact absurd ht (by decide)

theorem Engine.PortInv.inv_of_rest {c : Cfg} {e : Engine} (h : e.PortInv c) (hr : e.busy = false) : e.Inv c := by
  rcases h with h | ⟨h, -⟩
  · exact h
  · exact absurd (hr.symm.trans h.busy) nofun

/-- R112: at rest nothing happens, a tick to wait is counted, and a due handler goes on (`handler_meetsInv`). -/
theorem engineTick_meetsInv {s : State} (hwf : cfgWf s.cfg = true) (h : s.eng.PortInv s.cfg) :
    NextMeetsInv s.cfg (engineTick s) := by
  obtain ⟨i, hi⟩ := Option.isSome_iff_exists.1 ((decodeState_isSome_iff _).2 h.state_le)
  rw [engineTick_eq hi]
  cases hb : s.eng.busy with
  | false =>
    rw [countDown_of_rest hb, if_pos (due_of_rest hb)]
    exact ⟨s, exec_of_rest hb hi, h.inv_of_rest hb⟩
  | true =>
    rcases Nat.lt_or_ge s.eng.timer.toNat 2 with ht | ht
    · have ht := Nat.le_of_lt_succ ht
      rw [if_pos (due_of_le_one hb ht), countDown_of_le_one hb ht]
      exact handler_meetsInv (s := { s with eng := { s.eng with timer := 0 } }) hwf (h.due hb ht)
        (busyHandler_of_decodeState hb hi)
    · rw [if_neg (by simp [due_of_two_le hb ht]), countDown_of_two_le hb ht]
      exact ⟨_, rfl, (h.inv_of_two_le ht).waiting hb ht⟩

/-! ## The retry budget (R42, R225) -/

theorem admitCalls_retryCount (v : Int) (h : Controller) (ts : List Target) :
    (admitCalls v h ts).retryCount = h.retryCount := by
  induction ts generalizing h with
  | nil => rfl
  | cons t ts ih =>
    unfold admitCalls
    split
    · exact ih _
    · rfl

/-- The controller's action spends no retry: it keeps the count, or `LOADB` clears it. -/
theorem controllerAct_retryCount_le (c : Cfg) (v : Int) (h : Controller) :
    (controllerAct c v h).host.retryCount ≤ h.retryCount := by
  unfold controllerAct
  split
  case h_3 => exact Nat.zero_le _
  case h_9 =>
    split
    next => exact le_rfl
    next => split <;> exact le_rfl
  all_goals exact le_rfl

theorem controllerMove_retryCount_le (c : Cfg) (v : Int) (h : Controller) :
    (controllerMove c v h).host.retryCount ≤ h.retryCount := by
  refine (controllerAct_retryCount_le _ _ _).trans_eq ?_
  split
  · exact admitCalls_retryCount _ _ _
  · rfl

theorem controllerHold_retryCount (h : Controller) : (controllerHold h).retryCount = h.retryCount := by
  unfold controllerHold
  split <;> rfl

theorem hostPresent_retryCount_le (s : State) : (hostPresent s).2.host.retryCount ≤ s.host.retryCount := by
  unfold hostPresent
  split
  case h_1 => exact controllerMove_retryCount_le _ _ _
  case h_2 => exact controllerMove_retryCount_le s.cfg s.vbus { s.host with waiting := s.host.waiting ++ _ }
  case h_3 => exact (controllerHold_retryCount _).le
  case h_4 => exact (controllerHold_retryCount _).le
  case h_5 => exact Nat.zero_le _

/-- A retry is spent only below the budget (R225). -/
theorem controllerSee_retryCount_le {c : Cfg} {h : Controller} (ev : Event) (v : Int) (hle : h.retryCount ≤ c.afcRetryMax) :
    (controllerSee c ev v h).retryCount ≤ c.afcRetryMax := by
  unfold controllerSee
  split
  next =>
    cases ev with
    | none => exact hle
    | done => exact hle
    | error =>
      dsimp only
      split
      next => exact hle
      next =>
        split
        next => exact hle
        next hne => exact Nat.lt_of_le_of_ne hle hne
  next => exact hle

/-! ## Every step keeps the invariant -/

/-- An ordinary tick goes on, keeps the invariant, and leaves the configuration and the bench. -/
theorem ordinaryTick_meetsInv {s : State} (h : s.Inv) :
    ∃ t, ordinaryTick s = .next t ∧ t.Inv ∧ t.cfg = s.cfg ∧ t.bench = s.bench := by
  obtain ⟨heng, hcfg, -, hbench, -, -, -, -⟩ := hostPresent_frame s.clearOut
  obtain ⟨u, hu, huf⟩ := runWord_frame (hostPresent s.clearOut).1 (hostPresent s.clearOut).2
  have hucfg : u.cfg = s.cfg := huf.cfg_eq.trans hcfg
  have heff := runWord_effect hu
  rw [heng] at heff
  have hport : u.eng.PortInv u.cfg := by rw [hucfg]; exact heff.portInv h.eng_inv h.cfg_wf
  obtain ⟨v, hv, hvinv⟩ := engineTick_meetsInv (hucfg ▸ h.cfg_wf) hport
  have hvf := engineTick_frame hv
  have hvcfg : v.cfg = s.cfg := hvf.cfg_eq.trans hucfg
  have hretry : v.host.retryCount ≤ v.cfg.afcRetryMax := by
    rw [hvcfg, hvf.host_eq, huf.host_eq]
    exact (hostPresent_retryCount_le s.clearOut).trans h.retry_le
  refine ⟨_, ordinaryTick_eq_next.2 ⟨u, v, hu, hv, rfl⟩, ⟨?_, ?_, ?_⟩, hvcfg, ?_⟩
  · exact hvcfg ▸ h.cfg_wf
  · exact hvf.cfg_eq ▸ hvinv
  · exact controllerSee_retryCount_le _ _ hretry
  · exact hvf.bench_eq.trans (huf.bench_eq.trans hbench)

/-- A tick of `rst` meets the invariant (R280). -/
theorem resetTick_inv {s : State} (hwf : cfgWf s.cfg = true) : (resetTick s).Inv :=
  ⟨hwf, Engine.reset_inv _, Nat.zero_le _⟩

/-- The slave's slot holds one symbol, which leaves the engine alone (R144, log 14). -/
theorem exec_of_slavePing {w : WireWord} {i : Instr} {s t : State} (hw : w.slot = .slavePing) (hi : decodeWire w = some i)
    (h : exec i s = .next t) : t.eng = s.eng := by
  unfold decodeWire at hi
  rw [hw] at hi
  dsimp only at hi
  split at hi <;> cases hi
  cases h
  rfl

/-- A bench symbol leaves the engine as it was: the adapter's touches nothing of it, the block's own is played at rest and leaves
the pad at the safe default (R133, log 15). -/
theorem benchStep_eng {w : WireWord} {s t : State} (h : s.Inv) (hready : benchReady w s = true)
    (ht : benchStep w s = .next t) : t.eng = s.eng := by
  obtain ⟨-, -, heng⟩ := benchStep_frame ht
  obtain ⟨i, u, hi, hu, ⟨hw, rfl⟩ | ⟨hw, rfl⟩⟩ := benchStep_eq_next ht
  · exact exec_of_slavePing (s := { s.clearOut with bench := none }) hw hi hu
  · have hr : s.eng.busy = false := by simpa [benchReady, hw] using hready
    rw [heng, State.mapEng_eng, Engine.lineOutput_dir, Engine.lineOutput_dout, ← h.eng_inv.rest_dir hr,
      ← h.eng_inv.rest_dout hr]

theorem benchStep_inv {w : WireWord} {s t : State} (h : s.Inv) (hready : benchReady w s = true)
    (ht : benchStep w s = .next t) : t.Inv := by
  obtain ⟨hcfg, hhost, -⟩ := benchStep_frame ht
  have heng := benchStep_eng h hready ht
  refine ⟨hcfg ▸ h.cfg_wf, ?_, ?_⟩
  · rw [heng, hcfg]; exact h.eng_inv
  · rw [hhost, hcfg]; exact h.retry_le

/-- Settles O37: over the three kinds of step. -/
theorem stepKeepsTheInvariant : Obligations.StepKeepsTheInvariant := by
  intro s t h hstep
  obtain ⟨hwf, ⟨-, rfl⟩ | ⟨-, -, ⟨-, ht⟩ | ⟨w, -, hready, ht⟩⟩⟩ := step_eq_next hstep
  · exact resetTick_inv hwf
  · obtain ⟨t', ht', hinv, -, -⟩ := ordinaryTick_meetsInv h
    cases ht'.symm.trans ht
    exact hinv
  · exact benchStep_inv h hready ht

/-- Settles O38: the reset registers meet the engine's part, and no retry is spent. -/
theorem resetMeetsTheInvariant : Obligations.ResetMeetsTheInvariant :=
  fun _ _ hwf => ⟨hwf, Engine.reset_inv _, Nat.zero_le _⟩

/-! ## Runs from reset -/

/-- What holds of every state of a run from reset in the configuration `c`: the invariant, `c` itself (R293) and an empty bench. -/
structure RunInv (c : Cfg) (s : State) : Prop where
  inv : s.Inv
  cfg_eq : s.cfg = c
  no_bench : s.bench = none

theorem Engine.Inv.codesLegal {c : Cfg} {e : Engine} (h : e.Inv c) : e.codesLegal = true := by
  simp [Engine.codesLegal, legalCode, h.state_le, h.error_le]

theorem RunInv.reset {c : Cfg} (hwf : cfgWf c = true) (env : Env) : RunInv c { State.resetWith c with env := env } :=
  ⟨resetMeetsTheInvariant c env hwf, rfl, rfl⟩

/-- From such a state a step goes on, to such a state (R41, R132). -/
theorem RunInv.step {c : Cfg} {s : State} (h : RunInv c s) : ∃ t, Machine.step s = .next t ∧ RunInv c t := by
  obtain ⟨hinv, hcfg, hbench⟩ := h
  cases hr : s.rstNow with
  | true => exact ⟨_, step_of_rst hinv.cfg_wf hr, resetTick_inv hinv.cfg_wf, hcfg, rfl⟩
  | false =>
    obtain ⟨t, ht, htinv, htcfg, htbench⟩ := ordinaryTick_meetsInv hinv
    exact ⟨t, (step_of_ready hinv.cfg_wf hr hinv.eng_inv.codesLegal hbench).trans ht, htinv, htcfg.trans hcfg,
      htbench.trans hbench⟩

theorem runs_from_reset (c : Cfg) (env : Env) (k : Nat) (hwf : cfgWf c = true) :
    ∃ t, runs k { State.resetWith c with env := env } = .next t ∧ RunInv c t :=
  runs_go (fun _ => RunInv.step) k (RunInv.reset hwf env)

/-- The engine in a state that a run from reset reaches. -/
theorem engInv_of_run {c : Cfg} {env : Env} {k : Nat} {t : State} (hwf : cfgWf c = true)
    (h : runs k { State.resetWith c with env := env } = .next t) : t.eng.Inv c := by
  obtain ⟨t', ht', hinv, rfl, -⟩ := runs_from_reset c env k hwf
  cases ht'.symm.trans h
  exact hinv.eng_inv

/-- Settles O39: `RunInv.step` at every step of the run. -/
theorem runsFromResetNeverStop : Obligations.RunsFromResetNeverStop := by
  intro c env k hwf
  obtain ⟨t, ht, -⟩ := runs_from_reset c env k hwf
  exact ⟨t, ht⟩

/-- Settles O40: (I-a) to (I-h) are parts of the invariant. -/
theorem reachableStatesMeetR41 : Obligations.ReachableStatesMeetR41 := by
  intro c env k t hwf h
  have hinv := engInv_of_run hwf h
  refine ⟨hinv.parity_eq, hinv.round_le, fun hr => ⟨hinv.rest_timer hr, hinv.rest_dir hr, hinv.rest_dout hr⟩, hinv.state_le,
    ?_, hinv.error_le, hinv.done_of, fun hs => ?_, fun hs => ?_, hinv.error_of⟩
  · rw [hinv.err_eq]
    exact errOf_eq_true_iff _
  · rw [hinv.dir_eq]
    revert hs
    generalize t.eng.state = st
    revert st
    decide
  · rw [hinv.dir_eq]
    revert hs
    generalize t.eng.state = st
    revert st
    decide

/-- R33: the range of `PHASE_COUNTER` in each state is within the bound for all. -/
theorem phaseCounter_le_phaseMax {c : Cfg} {e : Engine} (hwf : cfgWf c = true) (h : phaseOk c e) :
    e.phaseCounter.toNat ≤ phaseMax c := by
  have hseq := (endSeq_fits hwf e.parity).2.1
  unfold phaseOk at h
  split at h
  case h_11 => exact h
  case h_12 => exact h
  case h_13 => rw [h]; exact Nat.zero_le _
  all_goals exact le_phaseMax (by omega)

/-- Settles O41: the bounds are those of the invariant and of a well-formed configuration. -/
theorem countersKeepTheirBounds : Obligations.CountersKeepTheirBounds := by
  intro c env k t hwf h
  have hinv := engInv_of_run hwf h
  obtain ⟨-, hwait, -, -, hmax, -, hcnt, -, -⟩ := cfgWf_bounds hwf
  exact ⟨phaseCounter_le_phaseMax hwf hinv.phase_ok, by omega, hinv.round_le, hcnt, hinv.timer_le, timerMax_lt hwf⟩

end Sys2Proof.Machine

/-! Family `20_memory.md`: the order of a tick (R68), and the reset state a `DETACH` leaves behind (R70). -/

namespace Sys2Proof.Machine

/-! ## The word at the port -/

/-- At the command port a legal word is the command it stands for (R200). -/
theorem runWord_of_decodeCmd {w : BitVec 16} {i : Instr} (h : decodeCmd w = some i) (s : State) :
    runWord (some w) s = exec i s := by
  rw [runWord, h]

/-- Settles O33: a ready step is an ordinary tick, whose word is the one presented. -/
theorem stepRunsThePresentedCommand : Obligations.StepRunsThePresentedCommand := by
  intro s w rest i ⟨hwf, hrst, hcodes, hbench⟩ hscript hi
  have hport : hostPresent s.clearOut = (some w, { s.clearOut with host := controllerHold s.clearOut.host }) :=
    hostPresent_of_word hscript
  rw [step_of_ready hwf hrst hcodes hbench, ordinaryTick, hport, runWord_of_decodeCmd hi]
  rfl

/-! ## A tick in which neither the engine nor the controller has anything to do -/

/-- The engine's step of a block that is not busy goes on, and is none (R112, R113). -/
theorem engineTick_eq_next_of_rest {s : State} (hb : s.eng.busy = false) : engineTick s = .next s := by
  have hdecode : ∃ i, decodeState s.eng.state = some i := by
    rcases (busy_eq_false_iff s.eng).1 hb with hs | hs | hs <;> exact ⟨_, by rw [hs]; rfl⟩
  obtain ⟨i, hi⟩ := hdecode
  rw [engineTick_eq hi, countDown_of_rest hb, if_pos (due_of_rest hb)]
  exact exec_of_rest hb hi

theorem controllerHold_of_idle {h : Controller} (hp : h.phase = .idle) : controllerHold h = h := by
  rw [controllerHold, hp]

/-- Outside step 4 of a call the controller does not look at the event (R222). -/
theorem hostSee_of_idle {s : State} (hp : s.host.phase = .idle) : hostSee s = s := by
  have hne : s.host.phase ≠ .waitEvent := by rw [hp]; nofun
  simp only [hostSee, controllerSee, if_neg hne]

/-! ## The reset state in a quiet environment -/

/-- What a `DETACH` leaves behind: the registers of R45, no event, and nothing to come that could move them. -/
structure State.Quiesced (s : State) : Prop where
  cfg_wf : cfgWf s.cfg = true
  quiet : s.Quiet
  eng_reset : s.eng = Engine.reset
  no_event : s.out.event = .none

theorem State.Quiesced.ready {s : State} (h : s.Quiesced) : s.Ready where
  cfg_wf := h.cfg_wf
  no_rst := by rw [State.rstNow, h.quiet.rst_nil]
  codes := by rw [h.eng_reset]; decide
  no_bench := h.quiet.bench_none

/-- From such a state a step goes on, to such a state. -/
theorem State.Quiesced.step {s : State} (h : s.Quiesced) : ∃ t, Machine.step s = .next t ∧ t.Quiesced := by
  have hrest : s.eng.busy = false := by rw [h.eng_reset]; decide
  have htick : engineTick { s with out := Out.none } = .next { s with out := Out.none } := engineTick_eq_next_of_rest hrest
  refine ⟨endTick (hostSee { s with out := Out.none }), ?_, h.cfg_wf, quiet_endTick h.quiet rfl, h.eng_reset, rfl⟩
  rw [step_of_quiet h.ready h.quiet, htick, andThen_next]

/-- A state after the `DETACH` of its tick, before the engine's step (R206): the registers of R45, and the answer `ACK`. -/
def State.detached (s : State) : State :=
  { s with eng := Engine.reset, out := { Out.none with resp := some ⟨.ack, 0⟩ } }

theorem exec_detach (s : State) : exec .detach s.clearOut = .next s.detached := rfl

/-- The end of the tick of a `DETACH` with which the host's stream ends. -/
theorem quiesced_endTick_detached {s : State} (hr : s.Ready) (hscript : s.env.script = [.word wordDetach])
    (hrst : s.env.rst = []) (hidle : s.host.phase = .idle) (hwait : s.host.waiting = []) :
    (endTick s.detached).Quiesced where
  cfg_wf := hr.cfg_wf
  eng_reset := rfl
  no_event := rfl
  quiet :=
    { script_nil := by simp [State.detached, endTick, State.dropInputs, State.wireTick, State.hostItem, hscript]
      rst_nil := by simp [State.detached, endTick, State.dropInputs, State.wireTick, hrst]
      bench_none := hr.no_bench
      phase_idle := hidle
      waiting_nil := hwait }

/-- The tick of a `DETACH`, busy or not: the word runs before the engine's step, which then finds a block at rest, so that no
handler that was due runs (R68, R259). -/
theorem step_of_detach {s : State} (hr : s.Ready) (hscript : s.env.script = [.word wordDetach])
    (hidle : s.host.phase = .idle) : step s = .next (endTick s.detached) := by
  have hdecode : decodeCmd wordDetach = some .detach := by decide
  have hexec : exec .detach { s with host := controllerHold s.host, out := Out.none } = .next s.detached := by
    rw [controllerHold_of_idle hidle]
    exact exec_detach s
  have hrest : s.detached.eng.busy = false := rfl
  have hsee : hostSee s.detached = s.detached := hostSee_of_idle hidle
  rw [stepRunsThePresentedCommand s _ _ _ hr hscript hdecode, hexec, andThen_next, engineTick_eq_next_of_rest hrest,
    andThen_next, hsee]

/-- Settles O46: the first step quiesces the block, and every later one keeps it so. -/
theorem detachQuiescesForEver : Obligations.DetachQuiescesForEver := by
  intro s n hr hscript hrst hidle hwait
  have hquiesced : (endTick s.detached).Quiesced := quiesced_endTick_detached hr hscript hrst hidle hwait
  obtain ⟨t, ht, hend⟩ := runs_go (fun _ => State.Quiesced.step) n hquiesced
  exact ⟨t, by rw [runs_succ, step_of_detach hr hscript hidle, andThen_next, ht], hend.eng_reset, hend.no_event⟩

end Sys2Proof.Machine

/-! Family `30_encoding.md`: encoding and decoding are inverse to each other (R82, R84, R88, R89, R96), what is illegal (R92), and
the symbol at the bench (log 15). -/

namespace Sys2Proof

/-! ## From an instruction to its word and back -/

/-- Settles O1, row by row of the table. -/
theorem decodeInvertsEncode : Obligations.DecodeInvertsEncode
  | .nop => Laws.RoundTrip.nop
  | .swon => Laws.RoundTrip.swon
  | .swoff => Laws.RoundTrip.swoff
  | .loadb imm => Laws.RoundTrip.loadb imm
  | .start => Laws.RoundTrip.start
  | .detach => Laws.RoundTrip.detach
  | .forceok => Laws.RoundTrip.forceok
  | .rd n => Laws.RoundTrip.rd n
  | .idle => Laws.RoundTrip.idle
  | .mpingStart => Laws.RoundTrip.mpingStart
  | .mpingEnd => Laws.RoundTrip.mpingEnd
  | .waitSping => Laws.RoundTrip.waitSping
  | .spingStart => Laws.RoundTrip.spingStart
  | .spingEnd => Laws.RoundTrip.spingEnd
  | .requestCtrl => Laws.RoundTrip.requestCtrl
  | .startTransfer => Laws.RoundTrip.startTransfer
  | .sendData => Laws.RoundTrip.sendData
  | .endTransfer => Laws.RoundTrip.endTransfer
  | .sendEndMping => Laws.RoundTrip.sendEndMping
  | .waitData => Laws.RoundTrip.waitData
  | .recvDataStart => Laws.RoundTrip.recvDataStart
  | .recvDataEnd => Laws.RoundTrip.recvDataEnd
  | .sendCfmMpingStart => Laws.RoundTrip.sendCfmMpingStart
  | .sendCfmMpingEnd => Laws.RoundTrip.sendCfmMpingEnd
  | .waitCfmSping => Laws.RoundTrip.waitCfmSping
  | .recvCfmSpingStart => Laws.RoundTrip.recvCfmSpingStart
  | .recvCfmSpingEnd => Laws.RoundTrip.recvCfmSpingEnd
  | .finish => Laws.RoundTrip.finish
  | .ok => Laws.RoundTrip.ok
  | .error => Laws.RoundTrip.error
  | .mping => Laws.RoundTrip.mping
  | .sping => Laws.RoundTrip.sping
  | .leadin => Laws.RoundTrip.leadin
  | .startMark1 => Laws.RoundTrip.startMark1
  | .startMark0 => Laws.RoundTrip.startMark0
  | .bit b => Laws.RoundTrip.bit b
  | .paritySlot p => Laws.RoundTrip.paritySlot p
  | .trailer0 => Laws.RoundTrip.trailer0
  | .trailer1 => Laws.RoundTrip.trailer1
  | .guard => Laws.RoundTrip.guard
  | .recvWindow => Laws.RoundTrip.recvWindow
  | .frameB71P0 rest => Laws.RoundTrip.frameB71P0 rest
  | .frameB71P1 rest => Laws.RoundTrip.frameB71P1 rest
  | .frameB70P0 rest => Laws.RoundTrip.frameB70P0 rest
  | .frameB70P1 rest => Laws.RoundTrip.frameB70P1 rest

/-! ## From a command word to its command and back -/

theorem wordLoadb_toNat (m : Byte) : (Machine.wordLoadb m).toNat = 0x3000 + m.toNat := by
  simp only [Machine.wordLoadb]
  bv_omega

theorem wordRd_toNat (n : BitVec 4) : (Machine.wordRd n).toNat = 0x7000 + n.toNat := by
  simp only [Machine.wordRd]
  bv_omega

/-- Fields that decode under `RSV = 0` fix every bit of the word, which `cmdWord_toNat` puts together again (R81, R82). -/
theorem encode_of_decodeCmdFields {w : BitVec 16} {i : Instr} (hrsv : cmdRsv w = 0)
    (h : decodeCmdFields (cmdOp w) (cmdImm w) = some i) : encode i = .cmd w ∧ i.wf = true := by
  have hw := cmdWord_toNat w
  rw [hrsv] at hw
  unfold decodeCmdFields at h
  split at h
  case h_4 hop =>
    obtain rfl := Option.some.inj h
    rw [hop] at hw
    exact ⟨congrArg Code.cmd (BitVec.eq_of_toNat_eq (by rw [hw, wordLoadb_toNat]; rfl)), rfl⟩
  case h_8 hop =>
    obtain ⟨hhigh, rfl⟩ := decodeRd_eq_some.1 h
    rw [hop, cmdImm_toNat, hhigh] at hw
    exact ⟨congrArg Code.cmd (BitVec.eq_of_toNat_eq (by rw [hw, wordRd_toNat]; simp)), rfl⟩
  case h_9 => cases h
  case h_1 hop | h_2 hop | h_3 hop | h_5 hop | h_6 hop | h_7 hop =>
    obtain ⟨himm, rfl⟩ := decodeNoOperand_eq_some.1 h
    rw [hop, himm] at hw
    exact ⟨congrArg Code.cmd (BitVec.eq_of_toNat_eq hw.symm), rfl⟩

theorem encode_of_decodeCmd {w : BitVec 16} {i : Instr} (h : decodeCmd w = some i) : encode i = .cmd w ∧ i.wf = true := by
  obtain ⟨hrsv, hfields⟩ := Option.ite_none_right_eq_some.1 h
  exact encode_of_decodeCmdFields hrsv hfields

/-! ## From a state code to its handler and back -/

theorem encode_of_decodeState {c : BitVec 5} {i : Instr} (h : decodeState c = some i) :
    encode i = .state c ∧ i.wf = true := by
  have hle : c.toNat ≤ 21 := (decodeState_isSome_iff c).1 (Option.isSome_of_eq_some h)
  rcases state_cases hle with rfl | rfl | rfl | rfl | rfl | rfl | rfl | rfl | rfl | rfl | rfl | rfl | rfl | rfl | rfl | rfl
    | rfl | rfl | rfl | rfl | rfl | rfl
  all_goals
    cases h
    exact ⟨rfl, rfl⟩

/-! ## From a wire symbol to its instruction and back -/

/-- A byte is its bit 7 and its bits 6..0 (R96). -/
theorem frameByte_getLsbD_extractLsb' (b : Byte) : frameByte (b.getLsbD 7) (b.extractLsb' 0 7) = b := by
  refine BitVec.eq_of_getLsbD_eq fun k hk => ?_
  rw [frameByte, BitVec.getLsbD_append]
  split
  next h7 => simp [h7]
  next h7 =>
    obtain rfl : k = 7 := by omega
    simp

/-- The frame instruction of a byte is well formed, and its word is the byte's frame (R89, R96). -/
theorem encode_frameInstr (b : Byte) :
    encode (frameInstr b) = .wire ⟨.frame, wireFrame b⟩ ∧ (frameInstr b).wf = true := by
  have hbyte := frameByte_getLsbD_extractLsb' b
  unfold frameInstr
  split
  case h_1 h7 hp | h_2 h7 hp | h_3 h7 hp | h_4 h7 hp =>
    rw [h7] at hbyte
    simp [encode, Instr.wf, wireFrame, Machine.frame, hbyte, hp]

/-- A frame word that decodes is the frame of a byte, from its first tick to its last (R151). -/
theorem decodeFrameWord_eq_some {lv : List WireLevel} {i : Instr} (h : decodeFrameWord lv = some i) :
    ∃ b, lv = wireFrame b ∧ i = frameInstr b := by
  unfold decodeFrameWord at h
  split at h
  next => cases h
  next =>
    split at h
    next => cases h
    next r _ =>
      obtain ⟨hlv, hi⟩ := Option.ite_none_right_eq_some.1 h
      exact ⟨r.byte, hlv, (Option.some.inj hi).symm⟩

/-- A slot with two symbols decodes to one of them, from that symbol's levels (R80, R88). -/
theorem eq_or_eq_of_twoSymbols {lv l₁ l₂ : List WireLevel} {i₁ i₂ i : Instr}
    (h : (if lv = l₁ then some i₁ else if lv = l₂ then some i₂ else none) = some i) :
    (lv = l₁ ∧ i = i₁) ∨ (lv = l₂ ∧ i = i₂) := by
  split at h
  next h₁ => exact .inl ⟨h₁, (Option.some.inj h).symm⟩
  next =>
    obtain ⟨h₂, hi⟩ := Option.ite_none_right_eq_some.1 h
    exact .inr ⟨h₂, (Option.some.inj hi).symm⟩

theorem encode_of_decodeWire {w : WireWord} {i : Instr} (h : decodeWire w = some i) : encode i = .wire w ∧ i.wf = true := by
  obtain ⟨slot, lv⟩ := w
  cases slot with
  | ping | slavePing | leadin | guard | recvWindow =>
    obtain ⟨rfl, hi⟩ := Option.ite_none_right_eq_some.1 h
    cases hi
    exact ⟨rfl, rfl⟩
  | startMark | dataBit | paritySlot | trailer =>
    obtain ⟨rfl, rfl⟩ | ⟨rfl, rfl⟩ := eq_or_eq_of_twoSymbols h <;> exact ⟨rfl, rfl⟩
  | frame =>
    obtain ⟨b, rfl, rfl⟩ := decodeFrameWord_eq_some h
    exact encode_frameInstr b

/-- Settles O2, format by format. -/
theorem encodeInvertsDecode : Obligations.EncodeInvertsDecode
  | .cmd _, _, h => encode_of_decodeCmd h
  | .state _, _, h => encode_of_decodeState h
  | .wire _, _, h => encode_of_decodeWire h

/-! ## Illegal words and codes (R92) -/

theorem decodeNoOperand_eq_none {m : BitVec 8} {i : Instr} : decodeNoOperand m i = none ↔ m ≠ 0 := by
  simp [decodeNoOperand]

theorem decodeRd_eq_none {m : BitVec 8} : decodeRd m = none ↔ m.extractLsb' 4 4 ≠ 0 := by simp [decodeRd]

theorem decodeCmdFields_eq_none {op : BitVec 4} {m : BitVec 8} :
    decodeCmdFields op m = none ↔
      8 ≤ op.toNat ∨ (op.toNat ∈ [0, 1, 2, 4, 5, 6] ∧ m ≠ 0) ∨ (op.toNat = 7 ∧ m.extractLsb' 4 4 ≠ 0) := by
  unfold decodeCmdFields
  split
  case h_1 hop | h_2 hop | h_3 hop | h_5 hop | h_6 hop | h_7 hop => simp [hop, decodeNoOperand_eq_none]
  case h_4 hop => simp [hop]
  case h_8 hop => simp [hop, decodeRd_eq_none]
  case h_9 =>
    have hop : 8 ≤ op.toNat := by
      simp only [imp_false] at *
      omega
    simp [hop]

/-- The high half of `IMM` is bits [7:4] of the word (R81). -/
theorem cmdImm_extractLsb'_four (w : BitVec 16) : (cmdImm w).extractLsb' 4 4 = w.extractLsb' 4 4 := by
  ext k hk
  simp [cmdImm]

theorem decodeCmd_eq_none {w : BitVec 16} :
    decodeCmd w = none ↔
      8 ≤ (cmdOp w).toNat ∨ cmdRsv w ≠ 0 ∨ ((cmdOp w).toNat ∈ [0, 1, 2, 4, 5, 6] ∧ cmdImm w ≠ 0)
        ∨ ((cmdOp w).toNat = 7 ∧ w.extractLsb' 4 4 ≠ 0) := by
  unfold decodeCmd
  by_cases hrsv : cmdRsv w = 0
  · rw [if_pos hrsv, decodeCmdFields_eq_none, cmdImm_extractLsb'_four]
    simp only [hrsv, ne_eq, not_true, false_or]
  · rw [if_neg hrsv]
    simp only [ne_eq, hrsv, not_false_iff, true_or, or_true]

theorem decodeState_eq_none {c : BitVec 5} (h : 22 ≤ c.toNat) : decodeState c = none := by
  rw [← Option.not_isSome_iff_eq_none, decodeState_isSome_iff]
  omega

end Sys2Proof

namespace Sys2Proof.Machine

/-- At the command port an illegal word is refused (R92, R200). -/
theorem runWord_of_illegal {w : BitVec 16} (h : decodeCmd w = none) (s : State) :
    runWord (some w) s = reject .rejIllegal s := by
  rw [runWord, h]

/-- A read of a register that does not exist is refused (R86, R92). -/
theorem exec_rd_of_five_le {n : BitVec 4} (h : 5 ≤ n.toNat) (s : State) : exec (.rd n) s = reject .rejIllegal s := by
  have hexec : exec (.rd n) s = execRd n s := rfl
  rw [hexec, execRd, regRead_eq_none h]

theorem codesLegal_eq_false {e : Engine} (h : 22 ≤ e.state.toNat) : e.codesLegal = false := by
  have hcode : legalCode e.state = false := decide_eq_false (by omega)
  rw [Engine.codesLegal, hcode, Bool.false_and]

/-- A code that no rule writes has no step (R92, U7, U10). -/
theorem step_of_illegalCodes {s : State} (hc : cfgWf s.cfg = true) (hr : s.rstNow = false)
    (hl : s.eng.codesLegal = false) : step s = .refused .unreachableCode := by
  simp [step, tickStep, refuseIllFormed, liveTick, hc, hr, hl]

/-- Settles O3: `decodeCmd_eq_none` says which words are illegal; the other clauses say what becomes of them. -/
theorem illegalEncodingsAreRefused : Obligations.IllegalEncodingsAreRefused :=
  ⟨fun _ => decodeCmd_eq_none,
    fun _ s hw => runWord_of_illegal hw s,
    fun n s hn => ⟨Laws.RoundTrip.rd n rfl, exec_rd_of_five_le hn s⟩,
    Laws.RoundTrip.nop rfl,
    fun _ => decodeState_eq_none,
    fun _ hc hr hstate => step_of_illegalCodes hc hr (codesLegal_eq_false hstate)⟩

/-- Settles O4: the codes one by one; each word written out is the word of its instruction, which decodes to it. -/
theorem codesAndWordsNameTheirInstructions : Obligations.CodesAndWordsNameTheirInstructions :=
  ⟨by decide, Laws.RoundTrip.loadb 0x46 rfl, Laws.RoundTrip.rd 2 rfl, Laws.RoundTrip.start rfl, Laws.RoundTrip.detach rfl,
    Laws.RoundTrip.trailer1 rfl, Laws.RoundTrip.startMark0 rfl, Laws.RoundTrip.bit true rfl⟩

/-! ## The symbol at the bench (log 15) -/

/-- A step with a symbol at the bench that may be played plays it. -/
theorem step_of_benchReady {s : State} {w : WireWord} (hc : cfgWf s.cfg = true) (hr : s.rstNow = false)
    (hl : s.eng.codesLegal = true) (hb : s.bench = some w) (hw : benchReady w s = true) : step s = benchStep w s := by
  simp [step, tickStep, refuseIllFormed, liveTick, hc, hr, hl, hb, hw]

theorem benchReady_iff {w : WireWord} {s : State} :
    benchReady w s = true ↔ w.slot = .slavePing ∨ s.eng.busy = false := by
  simp [benchReady]

/-- Settles O35: the step plays the symbol, and the symbol's meaning is its instruction's. -/
theorem stepPlaysTheBenchSymbol : Obligations.StepPlaysTheBenchSymbol := by
  intro s w i hc hr hl hb hi hready
  rw [step_of_benchReady hc hr hl hb (benchReady_iff.2 hready), benchStep, hi]
  rfl

end Sys2Proof.Machine

/-! Family `40_timing_primitive.md`: the count-down to the handler of `STATE` (R112), and what stands still meanwhile (R114) and at
rest (R70). -/

namespace Sys2Proof.Machine

/-! ## The engine's step of a busy block -/

/-- While `TIMER` is above 1 a tick is counted, and no handler runs (R112). -/
theorem engineTick_of_two_le {s : State} {i : Instr} (hi : decodeState s.eng.state = some i) (hb : s.eng.busy = true)
    (ht : 2 ≤ s.eng.timer.toNat) :
    engineTick s = .next { s with eng := { s.eng with timer := BitVec.ofNat 32 (s.eng.timer.toNat - 1) } } := by
  have hwait : ¬s.eng.countDown.due = true := by rw [due_of_two_le hb ht]; nofun
  rw [engineTick_eq hi, if_neg hwait, countDown_of_two_le hb ht]

/-- At 1, and at 0 after `START`, the handler of `STATE` is due (R112). -/
theorem engineTick_of_le_one {s : State} {i : Instr} (hi : decodeState s.eng.state = some i) (hb : s.eng.busy = true)
    (ht : s.eng.timer.toNat ≤ 1) : engineTick s = exec i { s with eng := { s.eng with timer := 0 } } := by
  rw [engineTick_eq hi, if_pos (due_of_le_one hb ht), countDown_of_le_one hb ht]

/-- Settles O36: at rest there is nothing to do; while busy, `TIMER` says whether the handler is due. -/
theorem engineTickCountsDownThenRuns : Obligations.EngineTickCountsDownThenRuns := by
  refine fun s => ⟨fun hrest => engineTick_eq_next_of_rest ((busy_eq_false_iff _).2 hrest), fun i hi hrest => ?_⟩
  have hb : s.eng.busy = true := Bool.eq_true_of_not_eq_false (mt (busy_eq_false_iff _).1 hrest)
  exact ⟨engineTick_of_two_le hi hb, engineTick_of_le_one hi hb⟩

/-- Settles O34: no word runs, and the host's part leaves the engine's registers as they were (`hostPresent_frame`). -/
theorem stepRunsTheDueHandler : Obligations.StepRunsTheDueHandler := by
  intro s i ⟨hwf, hrst, hcodes, hbench⟩ hnone hb ht hi
  have heng : (hostPresent s.clearOut).2.eng = s.eng := (hostPresent_frame s.clearOut).1
  have hword : runWord (hostPresent s.clearOut).1 (hostPresent s.clearOut).2 = .next (hostPresent s.clearOut).2 := by
    rw [hnone]
    rfl
  have htick := engineTick_of_le_one (s := (hostPresent s.clearOut).2) (i := i) (by rwa [heng]) (by rwa [heng])
    (by rwa [heng])
  rw [step_of_ready hwf hrst hcodes hbench, ordinaryTick, hword, andThen_next, htick, heng]

/-! ## Steps in a quiet environment -/

/-- Where nothing is to come, the configuration and the codes are all that a step waits for. -/
theorem State.Quiet.ready {s : State} (hq : s.Quiet) (hwf : cfgWf s.cfg = true) (hl : s.eng.codesLegal = true) : s.Ready where
  cfg_wf := hwf
  no_rst := by rw [State.rstNow, hq.rst_nil]
  codes := hl
  no_bench := hq.bench_none

/-- A step in a quiet environment answers the registers and the outputs of the engine's step, ready for the next one. -/
theorem step_of_quiet_engineTick {s u : State} (hr : s.Ready) (hq : s.Quiet)
    (hu : engineTick { s with out := Out.none } = .next u) (hl : u.eng.codesLegal = true) :
    ∃ t, step s = .next t ∧ t.Ready ∧ t.Quiet ∧ t.eng = u.eng ∧ t.out = u.out := by
  have hframe := engineTick_frame hu
  have hquiet := quiet_endTick hq hframe
  have hwf : cfgWf u.cfg = true := by rw [hframe.cfg_eq]; exact hr.cfg_wf
  refine ⟨endTick (hostSee u), ?_, hquiet.ready hwf hl, hquiet, rfl, rfl⟩
  rw [step_of_quiet hr hq, hu, andThen_next]

/-! ## At rest -/

/-- A block at rest with the registers `e`, in a quiet environment, after a tick with no output but the pad. -/
structure State.RestsAt (e : Engine) (s : State) : Prop where
  ready : s.Ready
  quiet : s.Quiet
  eng_eq : s.eng = e
  out_none : s.out = Out.none

/-- A step at rest keeps the registers and clears the outputs of the tick before. -/
theorem restsAt_step {s : State} (hr : s.Ready) (hq : s.Quiet) (hb : s.eng.busy = false) :
    ∃ t, step s = .next t ∧ t.RestsAt s.eng := by
  have htick : engineTick { s with out := Out.none } = .next { s with out := Out.none } := engineTick_eq_next_of_rest hb
  obtain ⟨t, ht, hready, hquiet, heng, hout⟩ := step_of_quiet_engineTick hr hq htick hr.codes
  exact ⟨t, ht, hready, hquiet, heng, hout⟩

theorem State.RestsAt.step {e : Engine} (hb : e.busy = false) {s : State} (h : s.RestsAt e) :
    ∃ t, Machine.step s = .next t ∧ t.RestsAt e := by
  obtain ⟨hready, hquiet, rfl, -⟩ := h
  exact restsAt_step hready hquiet hb

/-- Settles O45: the first step clears the outputs, and every later one keeps them clear. -/
theorem quiescentStaysQuiescent : Obligations.QuiescentStaysQuiescent := by
  intro s n hr hq hb
  obtain ⟨u, hu, hrests⟩ := restsAt_step hr hq hb
  obtain ⟨t, ht, hend⟩ := runs_go (fun _ => State.RestsAt.step hb) n hrests
  exact ⟨t, by rw [runs_succ, hu, andThen_next, ht], hend.eng_eq, hend.out_none⟩

/-! ## While `TIMER` counts -/

/-- The registers after `k` ticks in which no handler ran: `TIMER` less by `k`. -/
def Engine.elapse (k : Nat) (e : Engine) : Engine := { e with timer := BitVec.ofNat 32 (e.timer.toNat - k) }

theorem Engine.elapse_zero (e : Engine) : e.elapse 0 = e := by simp [Engine.elapse]

theorem Engine.elapse_timer_toNat (k : Nat) (e : Engine) : (e.elapse k).timer.toNat = e.timer.toNat - k := by
  have hlt : e.timer.toNat - k < 2 ^ 32 := by omega
  rw [Engine.elapse, BitVec.toNat_ofNat, Nat.mod_eq_of_lt hlt]

theorem Engine.elapse_elapse (j k : Nat) (e : Engine) : (e.elapse j).elapse k = e.elapse (j + k) := by
  rw [Engine.elapse, elapse_timer_toNat, Nat.sub_sub]
  rfl

/-- A legal state code names a handler (R84). -/
theorem decodeState_of_codesLegal {e : Engine} (h : e.codesLegal = true) : ∃ i, decodeState e.state = some i := by
  simp only [Engine.codesLegal, legalCode, Bool.and_eq_true, decide_eq_true_eq] at h
  exact Option.isSome_iff_exists.1 ((decodeState_isSome_iff _).2 h.1)

/-- A step that leaves ticks to wait: only `TIMER` changes (R112). -/
theorem step_of_two_le {s : State} (hr : s.Ready) (hq : s.Quiet) (hb : s.eng.busy = true) (ht : 2 ≤ s.eng.timer.toNat) :
    ∃ t, step s = .next t ∧ t.Ready ∧ t.Quiet ∧ t.eng = s.eng.elapse 1 := by
  obtain ⟨i, hi⟩ := decodeState_of_codesLegal hr.codes
  have htick := engineTick_of_two_le (s := { s with out := Out.none }) hi hb ht
  obtain ⟨t, hstep, hready, hquiet, heng, -⟩ := step_of_quiet_engineTick hr hq htick hr.codes
  exact ⟨t, hstep, hready, hquiet, heng⟩

/-- Settles O49: by induction on the number of ticks; each leaves one fewer to wait. -/
theorem delaysHoldTheOutputs : Obligations.DelaysHoldTheOutputs := by
  intro s k hr hq hb hk
  show ∃ t, runs k s = .next t ∧ t.eng = s.eng.elapse k
  induction k generalizing s with
  | zero => exact ⟨s, rfl, s.eng.elapse_zero.symm⟩
  | succ k ih =>
    obtain ⟨u, hu, hready, hquiet, heng⟩ := step_of_two_le hr hq hb (by omega)
    have hwait : k < u.eng.timer.toNat := by rw [heng, Engine.elapse_timer_toNat]; omega
    obtain ⟨t, ht, hend⟩ := ih u hready hquiet (by rw [heng]; exact hb) hwait
    refine ⟨t, by rw [runs_succ, hu, andThen_next, ht], ?_⟩
    rw [hend, heng, Engine.elapse_elapse, Nat.add_comm]

end Sys2Proof.Machine

/-! Family `41_gpio_line.md`: the preconditions of `LineWrite` and `LineRead` (R128, R129), and what the engine's step does not
depend on: `SWITCH` (R131), and the line unless a reception samples it (R125, R91, R152). -/

namespace Sys2Proof.Machine

/-! ## The preconditions of the pad primitives -/

/-- A pulse that exists is selected before `LineWrite` is refused. -/
theorem withPulse_lineWrite_of_input {s : State} {seq : List Pulse} (h : s.eng.dir = .input)
    (hp : s.eng.phaseCounter.toNat < seq.length) (k : Pulse → Engine → Engine) :
    withPulse seq (fun p => lineWrite p.level (k p) s) s = .refused .lineWriteWhileInput := by
  rw [withPulse_of_some (List.getElem?_eq_getElem hp), lineWrite_of_input h]

/-- `SEND_END_MPING` has a `LineWrite` at each of its edges. -/
theorem execSendEndMping_of_input {s : State} (h : s.eng.dir = .input) :
    execSendEndMping s = .refused .lineWriteWhileInput := by
  unfold execSendEndMping
  split <;> exact lineWrite_of_input h _ _

theorem execSendData_of_input {s : State} (h : s.eng.dir = .input) (hp : s.eng.phaseCounter.toNat ≤ 7) :
    execSendData s = .refused .lineWriteWhileInput := by
  rw [execSendData, withDataBit_of_le hp, lineWrite_of_input h]

theorem execSendData_of_lt {s : State} (hp : 7 < s.eng.phaseCounter.toNat) :
    execSendData s = .fault .pulseIndexOutOfRange := by
  rw [execSendData, withDataBit_of_lt hp]

/-- Settles O23: each handler by what its pad primitive, and before it the selection of its pulse or bit, does there. -/
theorem padPreconditionsAreKept : Obligations.PadPreconditionsAreKept := by
  refine ⟨fun s hin => ⟨?mpingEnd, ?cfmMpingEnd, ?endMping, ?startTransfer, ?sendData, ?endTransfer⟩,
    fun s hout => ⟨?spingStart, ?spingEnd, ?cfmSpingStart, ?cfmSpingEnd⟩,
    fun s => ⟨?noStartPulse, ?noBit, ?noEndPulse⟩⟩
  case mpingEnd => exact lineWrite_of_input hin _ _
  case cfmMpingEnd => exact lineWrite_of_input hin _ _
  case endMping => exact execSendEndMping_of_input hin
  case startTransfer => exact fun hp => withPulse_lineWrite_of_input hin hp _
  case sendData => exact execSendData_of_input hin
  case endTransfer => exact fun hp => withPulse_lineWrite_of_input hin hp _
  case spingStart => exact spingWait_of_output hout _ _
  case spingEnd => exact spingMeasure_of_output hout _ _
  case cfmSpingStart => exact spingWait_of_output hout _ _
  case cfmSpingEnd => exact spingMeasure_of_output hout _ _
  case noStartPulse => exact fun hp => withPulse_of_none hp _
  case noBit => exact execSendData_of_lt
  case noEndPulse => exact fun hp => withPulse_of_none hp _

/-! ## Another `SWITCH`, another line

Both independence statements are about one change of the state. The operations that handlers are made of carry it from the state
before to the state after, whether they answer a next state or stop. -/

def Engine.withSwitch (b : Bool) (e : Engine) : Engine := { e with switch := b }

/-- A choice between two register updates that does not look at `SWITCH`. -/
theorem ite_withSwitch {b : Bool} {c : Engine → Prop} [DecidablePred c] {f g : Engine → Engine}
    (hc : ∀ e, c (e.withSwitch b) ↔ c e) (hf : ∀ e, f (e.withSwitch b) = (f e).withSwitch b)
    (hg : ∀ e, g (e.withSwitch b) = (g e).withSwitch b) (e : Engine) :
    (if c (e.withSwitch b) then f (e.withSwitch b) else g (e.withSwitch b)) = (if c e then f e else g e).withSwitch b := by
  simp only [hc, hf, hg, apply_ite (Engine.withSwitch b)]

/-- The same state with another `SWITCH` and other levels to come on the line. -/
def State.perturb (b : Bool) (l : List Level) (s : State) : State :=
  { s with eng := s.eng.withSwitch b, env := { s.env with line := l } }

/-- From the state with another `SWITCH` and another line, `f` ends as from `s`, with that `SWITCH` and that line. -/
def Carries (b : Bool) (l : List Level) (f : State → Outcome) (s : State) : Prop :=
  f (s.perturb b l) = andThen (f s) fun t => .next (t.perturb b l)

section
variable {b : Bool} {l : List Level} {s : State}

theorem Carries.next {f : State → Outcome} {t : State} (h : Carries b l f s) (ht : f s = .next t) :
    f (s.perturb b l) = .next (t.perturb b l) := by
  rw [h, ht, andThen_next]

theorem carries_ite {c : State → Prop} [DecidablePred c] {f g : State → Outcome} (hc : c (s.perturb b l) ↔ c s)
    (hf : Carries b l f s) (hg : Carries b l g s) : Carries b l (fun u => if c u then f u else g u) s := by
  by_cases h : c s
  · simpa only [Carries, if_pos h, if_pos (hc.2 h)] using hf
  · simpa only [Carries, if_neg h, if_neg (mt hc.1 h)] using hg

theorem carries_lineWrite (v : Level) {k : Engine → Engine} (hk : ∀ e, k (e.withSwitch b) = (k e).withSwitch b) :
    Carries b l (lineWrite v k) s := by
  cases hd : s.eng.dir with
  | input =>
    have hd' : (s.perturb b l).eng.dir = .input := hd
    rw [Carries, lineWrite_of_input hd, lineWrite_of_input hd', andThen_refused]
  | output =>
    have hd' : (s.perturb b l).eng.dir = .output := hd
    rw [Carries, lineWrite_of_output hd, lineWrite_of_output hd', andThen_next]
    exact congrArg (fun e => Host.Outcome.next { s.perturb b l with eng := e }) (hk { s.eng with dout := v })

/-- The shape of the three states that play a sequence, as in `lineWrite_playing_exit`. -/
theorem carries_lineWrite_playing (v : Level) {last : Engine → Prop} [DecidablePred last] {c : BitVec 5}
    {following : Engine → BitVec 8} {d : Nat} (hlast : ∀ e, last (e.withSwitch b) ↔ last e)
    (hfollowing : ∀ e, following (e.withSwitch b) = following e) :
    Carries b l (lineWrite v fun e => if last e then (e.setPhase 0).goTo c d else (e.setPhase (following e)).stay d) s :=
  carries_lineWrite v (ite_withSwitch (f := fun e => (e.setPhase 0).goTo c d) (g := fun e => (e.setPhase (following e)).stay d)
    hlast (fun _ => rfl) fun e => by rw [hfollowing]; rfl)

/-- Only a released pad is sampled, so only there the level must be the same. -/
theorem carries_lineRead {f : Level → State → Outcome} (hl : s.eng.dir = .input → (s.perturb b l).lineIn = s.lineIn)
    (hf : ∀ v, Carries b l (f v) s) : Carries b l (fun u => lineRead (fun v => f v u) u) s := by
  cases hd : s.eng.dir with
  | input =>
    have hd' : (s.perturb b l).eng.dir = .input := hd
    rw [Carries, lineRead_of_input hd, lineRead_of_input hd', hl hd]
    exact hf s.lineIn
  | output =>
    have hd' : (s.perturb b l).eng.dir = .output := hd
    rw [Carries, lineRead_of_output hd, lineRead_of_output hd', andThen_refused]

theorem carries_withPulse (seq : List Pulse) {f : Pulse → State → Outcome} (hf : ∀ p, Carries b l (f p) s) :
    Carries b l (fun u => withPulse seq (fun p => f p u) u) s := by
  rcases Nat.lt_or_ge s.eng.phaseCounter.toNat seq.length with hlt | hge
  · have hp := List.getElem?_eq_getElem hlt
    have hp' : seq[(s.perturb b l).eng.phaseCounter.toNat]? = _ := hp
    rw [Carries, withPulse_of_some hp, withPulse_of_some hp']
    exact hf _
  · have hge' : seq.length ≤ (s.perturb b l).eng.phaseCounter.toNat := hge
    rw [Carries, withPulse_of_none hge, withPulse_of_none hge', andThen_fault]

theorem carries_withDataBit {f : Bool → State → Outcome} (hf : ∀ v, Carries b l (f v) s) :
    Carries b l (fun u => withDataBit (fun v => f v u) u) s :=
  carries_ite Iff.rfl (hf _) rfl

/-! ## Every handler carries the change -/

theorem carries_spingWait (m : BitVec 5) (p : Bool) (hl : s.eng.dir = .input → (s.perturb b l).lineIn = s.lineIn) :
    Carries b l (spingWait m p) s :=
  carries_lineRead hl fun
    | .high => rfl
    | .low => carries_ite Iff.rfl rfl rfl

theorem carries_spingMeasure (m : BitVec 5) (p : Bool) (hl : s.eng.dir = .input → (s.perturb b l).lineIn = s.lineIn) :
    Carries b l (spingMeasure m p) s :=
  carries_lineRead hl fun
    | .high => carries_ite Iff.rfl rfl rfl
    | .low => carries_ite Iff.rfl rfl rfl

/-- The states whose handlers use `LineRead` (R129). -/
def samplingCode (c : BitVec 5) : Prop :=
  c = cSpingStart ∨ c = cSpingEnd ∨ c = cRecvCfmSpingStart ∨ c = cRecvCfmSpingEnd

/-- If this tick's handler samples the line, it reads the level it would have read. -/
def State.SamplesAlike (b : Bool) (l : List Level) (s : State) : Prop :=
  samplingCode s.eng.state → s.eng.dir = .input → (s.perturb b l).lineIn = s.lineIn

theorem carries_exec {i : Instr} (hi : BusyHandler s.eng.state i) (hl : s.SamplesAlike b l) : Carries b l (exec i) s := by
  unfold State.SamplesAlike at hl
  generalize s.eng.state = c at hi hl
  cases hi with
  | mpingStart => rfl
  | mpingEnd => exact carries_lineWrite _ fun _ => rfl
  | waitSping => rfl
  | spingStart => exact carries_spingWait _ _ (hl (.inl rfl))
  | spingEnd => exact carries_spingMeasure _ _ (hl (.inr (.inl rfl)))
  | requestCtrl => rfl
  | startTransfer =>
    exact carries_withPulse _ fun p => carries_lineWrite_playing p.level (fun _ => Iff.rfl) fun _ => rfl
  | sendData =>
    unfold exec execSendData
    exact carries_withDataBit fun v => carries_lineWrite_playing (.ofBool v) (fun _ => Iff.rfl) fun _ => rfl
  | endTransfer =>
    exact carries_withPulse _ fun p => carries_lineWrite_playing p.level (fun _ => Iff.rfl) fun _ => rfl
  | sendEndMping =>
    exact carries_ite Iff.rfl (carries_lineWrite .high fun _ => rfl) (carries_lineWrite .low fun _ => rfl)
  | waitData => rfl
  | recvDataStart => rfl
  | recvDataEnd => rfl
  | sendCfmMpingStart => rfl
  | sendCfmMpingEnd => exact carries_lineWrite _ fun _ => rfl
  | waitCfmSping => rfl
  | recvCfmSpingStart => exact carries_spingWait _ _ (hl (.inr (.inr (.inl rfl))))
  | recvCfmSpingEnd => exact carries_spingMeasure _ _ (hl (.inr (.inr (.inr rfl))))
  | finish => exact carries_ite Iff.rfl rfl rfl

/-! ## The engine's step -/

theorem countDown_withSwitch (e : Engine) : (e.withSwitch b).countDown = e.countDown.withSwitch b :=
  ite_withSwitch (c := fun e => (e.busy && decide (e.timer ≠ 0)) = true) (f := fun e => { e with timer := e.timer - 1 })
    (g := id) (fun _ => Iff.rfl) (fun _ => rfl) (fun _ => rfl) e

theorem countDown_perturb :
    (s.perturb b l).mapEng Engine.countDown = (s.mapEng Engine.countDown).perturb b l :=
  congrArg (fun e => { s.perturb b l with eng := e }) (countDown_withSwitch s.eng)

/-- Counting down changes neither the state nor the pad, so the handler that is due samples alike too. -/
theorem State.SamplesAlike.countDown (hl : s.SamplesAlike b l) : (s.mapEng Engine.countDown).SamplesAlike b l := by
  intro hc hd
  rw [State.mapEng_eng, countDown_frame] at hc hd
  exact hl hc hd

theorem carries_engineTick (hl : s.SamplesAlike b l) : Carries b l engineTick s := by
  cases hi : decodeState s.eng.state with
  | none =>
    have hi' : decodeState (s.perturb b l).eng.state = none := hi
    rw [Carries, engineTick_of_none hi, engineTick_of_none hi', andThen_refused]
  | some i =>
    have hi' : decodeState (s.perturb b l).eng.state = some i := hi
    cases hb : s.eng.busy with
    | false =>
      have hb' : (s.perturb b l).eng.busy = false := hb
      rw [Carries, engineTick_eq_next_of_rest hb, engineTick_eq_next_of_rest hb', andThen_next]
    | true =>
      have hh : BusyHandler (s.mapEng Engine.countDown).eng.state i := by
        rw [State.mapEng_eng, countDown_state]
        exact busyHandler_of_decodeState hb hi
      have hdue : Carries b l (fun u => if u.eng.due = true then exec i u else .next u) (s.mapEng Engine.countDown) :=
        carries_ite Iff.rfl (carries_exec hh hl.countDown) rfl
      have htick : engineTick (s.perturb b l) =
          if ((s.mapEng Engine.countDown).perturb b l).eng.due = true then exec i ((s.mapEng Engine.countDown).perturb b l)
          else .next ((s.mapEng Engine.countDown).perturb b l) := by
        rw [← countDown_perturb]
        exact engineTick_eq hi'
      rw [Carries, htick, engineTick_eq hi]
      exact hdue

end

theorem HandlerFrame.env_eq {s t : State} (h : HandlerFrame s t) : t.env = s.env := by rw [h]

/-- The engine's step leaves `SWITCH` alone: it carries over the one the state has. -/
theorem engineTick_keeps_switch {s t : State} (h : engineTick s = .next t) : t.eng.switch = s.eng.switch := by
  have hself : engineTick s = .next (t.perturb s.eng.switch s.env.line) :=
    (carries_engineTick (b := s.eng.switch) (l := s.env.line) fun _ _ => rfl).next h
  exact congrArg (·.eng.switch) (Host.Outcome.next.inj (h.symm.trans hself))

/-- Settles O54: the line is the same, so every sample is. -/
theorem engineIgnoresTheSwitch : Obligations.EngineIgnoresTheSwitch := by
  intro s t b h
  have hswitch : engineTick (s.perturb b s.env.line) = .next (t.perturb b s.env.line) :=
    (carries_engineTick fun _ _ => rfl).next h
  have hline : t.perturb b s.env.line = { t with eng := { t.eng with switch := b } } := by
    rw [← (engineTick_frame h).env_eq]
    rfl
  exact hswitch.trans (congrArg Host.Outcome.next hline)

/-- Settles O55: with `DIR = OUTPUT`, and in the two states of the receive window, there is no sample to differ. -/
theorem engineIgnoresTheLineUnlessReceiving : Obligations.EngineIgnoresTheLineUnlessReceiving := by
  intro s t l hs h
  have hl : s.SamplesAlike s.eng.switch l := by
    intro hc hin
    rcases hs with hout | hst | hst
    · simp [hin] at hout
    · simp [samplingCode, hst] at hc
    · simp [samplingCode, hst] at hc
  have hline : engineTick (s.perturb s.eng.switch l) = .next (t.perturb s.eng.switch l) := (carries_engineTick hl).next h
  have hkeep : t.perturb s.eng.switch l = { t with env := { t.env with line := l } } := by
    rw [← engineTick_keeps_switch h]
    rfl
  exact hline.trans (congrArg Host.Outcome.next hkeep)

end Sys2Proof.Machine

/-! Family `42_byte_transfer.md`: the parity (R140), the symbols and the frame as levels on the wire (R141 to R150), `decode_frame`
(R151), the receive window (R152), and the samples of a SPING (R144, R145). -/

namespace Sys2Proof.Machine

/-! ## Parity -/

/-- One more bit turns the parity of a count iff it is 1. -/
theorem odd_toNat_add (x : Bool) (n : Nat) : ((x.toNat + n) % 2 == 1) = (x ^^ (n % 2 == 1)) := by
  rcases Nat.mod_two_eq_zero_or_one n with h | h <;> cases x <;> simp [Nat.add_mod, h]

theorem odd_popcountBelow_succ (b : Byte) (n : Nat) :
    (popcountBelow b (n + 1) % 2 == 1) = (b.getLsbD n ^^ (popcountBelow b n % 2 == 1)) := odd_toNat_add _ _

theorem parity_eq_xor (b : Byte) :
    parity b = (b.getLsbD 7 ^^ b.getLsbD 6 ^^ b.getLsbD 5 ^^ b.getLsbD 4 ^^ b.getLsbD 3 ^^ b.getLsbD 2 ^^ b.getLsbD 1
      ^^ b.getLsbD 0) := by
  have hzero : (popcountBelow b 0 % 2 == 1) = false := rfl
  simp only [parity, popcount, odd_popcountBelow_succ, hzero, Bool.xor_false, Bool.xor_assoc]

theorem popcount_eq_sum (b : Byte) :
    popcount b = ([0, 1, 2, 3, 4, 5, 6, 7].map fun k => (b.getLsbD k).toNat).sum := by
  simp only [popcount, popcountBelow, List.map_cons, List.map_nil, List.sum_cons, List.sum_nil]
  omega

/-- Settles O30: the count is the sum of the bits, and each bit that is 1 turns its parity. -/
theorem parityIsPopcountAndXor : Obligations.ParityIsPopcountAndXor := by
  refine fun b => ⟨?_, parity_eq_xor b⟩
  rw [parity_eq_decide, decide_eq_true_eq, popcount_eq_sum]

/-! ## The levels of the symbols and of the frame -/

theorem levels_dataBits (b : Byte) :
    levels (dataBits b) = [7, 6, 5, 4, 3, 2, 1, 0].flatMap fun k => List.replicate 4 (Level.ofBool (b.getLsbD k)) := rfl

theorem levels_endSeq (c : Cfg) (p : Bool) :
    levels (endSeq c p) =
      List.replicate 4 (Level.ofBool p) ++ levels (trailerPulses c p) ++ List.replicate 4 Level.low := by
  simp only [endSeq, paritySlotPulses, guardPulses, levels_append, levels_cons, levels_nil, List.append_nil]

/-- The parts of a frame in the order of R89, with their levels (R150). -/
theorem levels_frameWith (c : Cfg) (b : Byte) (p : Bool) :
    levels (frameWith c b p) =
      List.replicate 4 Level.low ++ levels (startMark c (b.getLsbD 7)) ++ levels (dataBits b)
        ++ levels (endSeq c p) := by
  simp only [frameWith, leadinPulses, levels_append, levels_cons, levels_nil, List.append_nil]

section
variable {c : Cfg} (h : DefaultShapes c)
include h

theorem DefaultShapes.startMark_eq (b7 : Bool) : startMark c b7 = defaultStartMark b7 := by
  obtain ⟨h0, h1, -, -⟩ := h
  cases b7 <;> assumption

theorem DefaultShapes.trailerPulses_eq (p : Bool) : trailerPulses c p = defaultTrailer p := by
  obtain ⟨-, -, h0, h1⟩ := h
  cases p <;> assumption

theorem DefaultShapes.endSeq_eq (p : Bool) : endSeq c p = paritySlotPulses p ++ defaultTrailer p ++ guardPulses := by
  rw [endSeq, h.trailerPulses_eq]

/-- The length law of R89. -/
theorem DefaultShapes.frame_length (b : Byte) :
    (levels (frame c b)).length = 4 + (if b.getLsbD 7 then 2 else 4) + 32 + 4 + (if parity b then 3 else 4) + 4 := by
  have hmark (b7 : Bool) : (levels (defaultStartMark b7)).length = if b7 then 2 else 4 := by cases b7 <;> rfl
  have htrailer (p : Bool) : (levels (defaultTrailer p)).length = if p then 3 else 4 := by cases p <;> rfl
  have hdata : (levels (dataBits b)).length = 32 := by rw [levels_length]; rfl
  simp only [frame, levels_frameWith, levels_endSeq, h.startMark_eq, h.trailerPulses_eq, List.length_append,
    List.length_replicate, hmark, htrailer, hdata]
  omega

end

/-- Settles O25: the lists as they stand, and the length law of a frame. -/
theorem symbolPulseSequences : Obligations.SymbolPulseSequences := by
  refine ⟨rfl, rfl, fun _ => rfl, fun _ _ => rfl, fun c h => ⟨h.startMark_eq true, h.startMark_eq false, ?_, ?_,
    h.frame_length⟩⟩
  · exact h.endSeq_eq false
  · exact h.endSeq_eq true

/-! ## Driving levels -/

/-- What drives levels and then more of them drives both, one after the other. -/
theorem Drives.trans {a b : List Level} {s t u : State} (hst : Drives a s t) (htu : Drives b t u) :
    Drives (a ++ b) s u := by
  unfold Drives at hst htu ⊢
  subst hst
  rw [htu]
  simp [Nat.add_assoc]

/-- One pulse drives its level for its ticks, of which there is at least one (R10). -/
theorem playPulse_drives {n : Nat} (hn : 1 ≤ n) (l : Level) (s : State) :
    Drives (List.replicate n l) s (playPulses [⟨l, n⟩] s) := by
  obtain ⟨k, rfl⟩ := Nat.exists_eq_add_of_le' hn
  have hlast (d : Level) : (List.replicate (k + 1) l).getLastD d = l := by
    simp [List.getLastD_eq_getLast?, List.getLast?_replicate]
  rw [playPulses, playPulses, holdTicks_of_output (s := s.mapEng (·.lineOutput l)) (k + 1) rfl]
  simp only [Drives, hlast, List.map_replicate, List.reverse_replicate, List.length_replicate]
  rfl

/-- A pulse sequence drives its levels: the one fact about all symbols of the block and about frames. -/
theorem playPulses_drives {ps : List Pulse} (hne : ps ≠ []) (hticks : ∀ p ∈ ps, 1 ≤ p.ticks) (s : State) :
    Drives (levels ps) s (playPulses ps s) := by
  induction ps generalizing s with
  | nil => exact absurd rfl hne
  | cons p ps ih =>
    obtain ⟨hp, hps⟩ := List.forall_mem_cons.1 hticks
    have hpulse := playPulse_drives hp p.level s
    cases ps with
    | nil => simpa using hpulse
    | cons q qs => exact hpulse.trans (ih (List.cons_ne_nil q qs) hps _)

/-- The shapes of a well-formed configuration have pulses, and each of them lasts (R10, log 4). -/
theorem startMark_drives {s : State} (hwf : cfgWf s.cfg = true) (b7 : Bool) :
    Drives (levels (startMark s.cfg b7)) s (playPulses (startMark s.cfg b7) s) := by
  obtain ⟨hlen, hfit⟩ := startMark_fits hwf b7
  exact playPulses_drives (List.ne_nil_of_length_pos (by omega)) (fun p hp => (hfit p hp).1) s

theorem trailer_drives {s : State} (hwf : cfgWf s.cfg = true) (p : Bool) :
    Drives (levels (trailerPulses s.cfg p)) s (playPulses (trailerPulses s.cfg p) s) := by
  obtain ⟨-, -, h0, h1⟩ := cfgWf_shapes hwf
  have hok : trailerOk s.cfg (trailerPulses s.cfg p) = true := by cases p <;> assumption
  obtain ⟨hlen, -, hpulse⟩ := trailerOk_iff.1 hok
  exact playPulses_drives (List.ne_nil_of_length_pos hlen) (fun q hq => (pulseOk_iff.1 (hpulse q hq)).1) s

theorem ping_drives (s : State) : Drives (List.replicate 64 .high ++ [.low]) s (playPulses pingPulses s) :=
  playPulses_drives (ps := pingPulses) (List.cons_ne_nil _ _) (by decide) s

/-- Settles O26: each symbol by the pulses it plays. -/
theorem blockSymbolsDriveTheirLevels : Obligations.BlockSymbolsDriveTheirLevels := by
  refine fun s hwf => ⟨⟨_, rfl, ping_drives s⟩, ⟨_, rfl, ?leadin⟩, ⟨_, rfl, ?guard⟩, fun b => ⟨_, rfl, ?bit⟩,
    fun p => ⟨_, rfl, ?paritySlot⟩, ⟨_, rfl, startMark_drives hwf true⟩, ⟨_, rfl, startMark_drives hwf false⟩,
    ⟨_, rfl, trailer_drives hwf true⟩, ⟨_, rfl, trailer_drives hwf false⟩⟩
  case leadin => exact playPulse_drives (by decide) _ s
  case guard => exact playPulse_drives (by decide) _ s
  case bit => exact playPulse_drives (by decide) _ s
  case paritySlot => exact playPulse_drives (by decide) _ s

/-! ## Driving a frame -/

theorem frameByte_getLsbD_seven (b7 : Bool) (rest : BitVec 7) : (frameByte b7 rest).getLsbD 7 = b7 := by
  rw [frameByte, BitVec.getLsbD_append]
  simp

theorem frameByte_getLsbD_of_lt (b7 : Bool) (rest : BitVec 7) {k : Nat} (hk : k < 7) :
    (frameByte b7 rest).getLsbD k = rest.getLsbD k := by
  rw [frameByte, BitVec.getLsbD_append, if_pos hk]

/-- Every pulse of a frame lasts, whatever its byte and its parity slot. -/
theorem one_le_ticks_of_mem_frameWith {c : Cfg} (hwf : cfgWf c = true) {b : Byte} {p : Bool} :
    ∀ q ∈ frameWith c b p, 1 ≤ q.ticks := by
  obtain ⟨-, hmark⟩ := startMark_fits hwf (b.getLsbD 7)
  obtain ⟨-, -, hend⟩ := endSeq_fits hwf p
  have hlead : ∀ q ∈ leadinPulses, 1 ≤ q.ticks := by decide
  have hdata : ∀ q ∈ dataBits b, 1 ≤ q.ticks := by simp [dataBits, dataBitsBelow, bitPulses]
  simp only [frameWith, List.forall_mem_append]
  exact ⟨⟨⟨hlead, fun q hq => (hmark q hq).1⟩, hdata⟩, fun q hq => (hend q hq).1⟩

theorem frame_drives {s : State} (hwf : cfgWf s.cfg = true) (b : Byte) (p : Bool) :
    Drives (levels (frameWith s.cfg b p)) s (playPulses (frameWith s.cfg b p) s) :=
  playPulses_drives (by simp [frameWith, leadinPulses]) (one_le_ticks_of_mem_frameWith hwf) s

/-- The frame of a byte given as bit 7 and bits 6 to 0 (R96), tick by tick. -/
theorem levels_frameWith_frameByte (c : Cfg) (b7 p : Bool) (rest : BitVec 7) :
    levels (frameWith c (frameByte b7 rest) p) =
      List.replicate 4 .low ++ levels (startMark c b7) ++ List.replicate 4 (.ofBool b7)
        ++ [6, 5, 4, 3, 2, 1, 0].flatMap (fun k => List.replicate 4 (Level.ofBool (rest.getLsbD k)))
        ++ List.replicate 4 (.ofBool p) ++ levels (trailerPulses c p) ++ List.replicate 4 .low := by
  have hrest : ([6, 5, 4, 3, 2, 1, 0].flatMap fun k => List.replicate 4 (Level.ofBool ((frameByte b7 rest).getLsbD k)))
      = [6, 5, 4, 3, 2, 1, 0].flatMap fun k => List.replicate 4 (Level.ofBool (rest.getLsbD k)) :=
    List.flatMap_congr fun k hk => by
      have hlt : k < 7 := by revert k; decide
      rw [frameByte_getLsbD_of_lt b7 rest hlt]
  rw [levels_frameWith, levels_dataBits, levels_endSeq, List.flatMap_cons, hrest, frameByte_getLsbD_seven]
  simp only [List.append_assoc]

/-- Settles O27: each of the four instructions plays the frame of its byte with the slot it names. -/
theorem framesDriveTheirLevels : Obligations.FramesDriveTheirLevels := by
  intro s rest b7 p hwf
  have hdrives := frame_drives hwf (frameByte b7 rest) p
  rw [levels_frameWith_frameByte] at hdrives
  refine ⟨playPulses (frameWith s.cfg (frameByte b7 rest) p) s, ?_, hdrives⟩
  cases b7 <;> cases p <;> rfl

/-! ## The released line -/

/-- The trace of ticks on the wire: one observation each, of the pad and the outputs as they stand. -/
theorem holdTicks_trace (n : Nat) (s : State) :
    ∃ obs : List TickOut, (holdTicks n s).trace = obs ++ s.trace ∧ obs.length = n
      ∧ ∀ o ∈ obs, o.dir = s.eng.dir ∧ o.dout = s.eng.dout ∧ o.switch = s.eng.switch ∧ o.out = s.out := by
  induction n generalizing s with
  | zero => exact ⟨[], rfl, rfl, by simp⟩
  | succ n ih =>
    obtain ⟨obs, htrace, hlen, hobs⟩ := ih s.wireTick
    refine ⟨obs ++ [s.observe], ?_, by simp [hlen], List.forall_mem_append.2 ⟨hobs, ?_⟩⟩
    · rw [holdTicks, htrace, State.wireTick_trace, List.append_assoc, List.singleton_append]
    · exact List.forall_mem_singleton.2 ⟨rfl, rfl, rfl, rfl⟩

/-- Settles O28: the window is 188 ticks on the wire with the pad released. -/
theorem receiveWindowAndSlavePing : Obligations.ReceiveWindowAndSlavePing := by
  refine fun s => ⟨⟨releaseFor 188 s, rfl, ?_⟩, rfl⟩
  obtain ⟨hcfg, heng, hhost, hbench, hout, htick, henv⟩ := holdTicks_frame 188 (s.mapEng (·.lineInput))
  obtain ⟨obs, htrace, hlen, hobs⟩ := holdTicks_trace 188 (s.mapEng (·.lineInput))
  refine ⟨heng, htick, hcfg, hhost, hbench, hout, henv, ?_, ?_, ?_⟩ <;> rw [releaseFor, htrace]
  · simp [hlen, Nat.add_comm]
  · simp [← hlen]
  · simpa [← hlen] using hobs

/-! ## Reading a frame back -/

/-- A slot of four equal levels is read wherever it stands on the wire. -/
theorem slotAt_append (u : List Level) (l : Level) (v : List Level) :
    slotAt (u ++ (List.replicate 4 l ++ v)) u.length = some l := by
  rw [slotAt, List.drop_left]
  exact if_pos ⟨rfl, rfl, rfl⟩

@[simp] theorem Level.toBool_ofBool (b : Bool) : (Level.ofBool b).toBool = b := by cases b <;> rfl

/-- The slots of bits are read as those bits, one after the other. -/
theorem slotsFrom_append (u : List Level) (bits : List Bool) (v : List Level) :
    slotsFrom (u ++ (bits.flatMap (fun b => List.replicate 4 (Level.ofBool b)) ++ v)) u.length bits.length = some bits := by
  induction bits generalizing u with
  | nil => rfl
  | cons b bits ih =>
    have hrest := ih (u ++ List.replicate 4 (.ofBool b))
    rw [List.length_append, List.length_replicate, List.append_assoc] at hrest
    rw [List.flatMap_cons, List.append_assoc, List.length_cons, slotsFrom, slotAt_append, hrest]
    simp

/-- What `decode_frame` answers for a wire with a cycle of `h` ticks at `d`, then eight slots, the slot `p` and its trailer (R151). -/
theorem decodeFrame_eq_some {v : List Level} {d h : Nat} {bits : List Bool} {p : Bool} (hfirst : firstHigh v = d)
    (hh : h = 1 ∨ h = 2) (hrun : highRun (v.drop d) = h) (hlow : (v.drop (d + h)).take h = List.replicate h .low)
    (hbits : slotsFrom v (d + 2 * h) 8 = some bits) (hp : slotAt v (d + 2 * h + 32) = some (.ofBool p))
    (hhead : bits.head? = some (decide (h = 1)))
    (htrailer : (v.drop (d + 2 * h + 36)).take (levels (defaultTrailer p)).length = levels (defaultTrailer p)) :
    decodeFrame v = some ⟨byteOfBits bits, p, p == parity (byteOfBits bits)⟩ := by
  have hcycle : ¬(h ≠ 1 ∧ h ≠ 2) := by omega
  have hshape : (if Level.ofBool p = .low then [Level.high, .high, .high, .high] else [.low, .high, .low])
      = levels (defaultTrailer p) := by cases p <;> rfl
  simp only [decodeFrame, hfirst, hrun, hlow, hbits, hp, hhead, hshape, htrailer, hcycle, if_false, ne_eq,
    not_true_eq_false, Level.toBool_ofBool]

/-- The bits of a byte, bit 7 first. -/
def bitsOf (b : Byte) : List Bool := [7, 6, 5, 4, 3, 2, 1, 0].map b.getLsbD

theorem byteOfBits_bitsOf (b : Byte) : byteOfBits (bitsOf b) = b := by
  revert b
  decide

theorem levels_dataBits_eq_bitsOf (b : Byte) :
    levels (dataBits b) = (bitsOf b).flatMap fun x => List.replicate 4 (Level.ofBool x) := rfl

/-- The ticks of a cycle of the start mark of bit 7 (R147). -/
def markTicks (b7 : Bool) : Nat := if b7 then 1 else 2

/-- The first HIGH tick, and the cycle that begins there, of a wire that begins with the lead-in and a start mark. -/
theorem cycle_of_startMark (b7 : Bool) (v : List Level) :
    let w := List.replicate 4 .low ++ (levels (defaultStartMark b7) ++ v)
    firstHigh w = 4 ∧ highRun (w.drop 4) = markTicks b7
      ∧ (w.drop (4 + markTicks b7)).take (markTicks b7) = List.replicate (markTicks b7) .low := by
  cases b7 <;> exact ⟨rfl, rfl, rfl⟩

/-- The parts of a frame, read one after the other: each stands where `decode_frame` looks for it. -/
theorem decodeFrame_append {b7 p : Bool} {bits : List Bool} (hlen : bits.length = 8) (hhead : bits.head? = some b7)
    (v : List Level) :
    decodeFrame (List.replicate 4 .low ++ levels (defaultStartMark b7)
        ++ bits.flatMap (fun b => List.replicate 4 (Level.ofBool b)) ++ List.replicate 4 (Level.ofBool p)
        ++ levels (defaultTrailer p) ++ v) = some ⟨byteOfBits bits, p, p == parity (byteOfBits bits)⟩ := by
  generalize hmark : List.replicate 4 Level.low ++ levels (defaultStartMark b7) = mark
  have hmarkLen : mark.length = 4 + 2 * markTicks b7 := by subst hmark; cases b7 <;> rfl
  generalize hslots : bits.flatMap (fun b => List.replicate 4 (Level.ofBool b)) = slots
  have hslotsLen : slots.length = 32 := by subst hslots; simp [List.length_flatMap, hlen]
  obtain ⟨hfirst, hrun, hlow⟩ := cycle_of_startMark b7
    (slots ++ List.replicate 4 (Level.ofBool p) ++ levels (defaultTrailer p) ++ v)
  refine decodeFrame_eq_some (d := 4) (h := markTicks b7) ?first ?ticks ?run ?low ?bits ?slot ?head ?trailer
  case first => simpa [← hmark] using hfirst
  case ticks => cases b7 <;> decide
  case run => simpa [← hmark] using hrun
  case low => simpa [← hmark] using hlow
  case bits =>
    have hread := slotsFrom_append mark bits (List.replicate 4 (Level.ofBool p) ++ levels (defaultTrailer p) ++ v)
    rw [hslots, hmarkLen, hlen] at hread
    simpa using hread
  case slot =>
    have hread := slotAt_append (mark ++ slots) (.ofBool p) (levels (defaultTrailer p) ++ v)
    rw [List.length_append, hmarkLen, hslotsLen] at hread
    simpa using hread
  case head => rw [hhead]; cases b7 <;> rfl
  case trailer =>
    rw [List.append_assoc _ _ v, List.drop_left' (by simp [hmarkLen, hslotsLen]), List.take_left]

/-- Settles O31: the parts of a frame with the default shapes, with its guard before what follows it. -/
theorem framesDecodeToTheirByte : Obligations.FramesDecodeToTheirByte := by
  intro c b p v h
  have hread := decodeFrame_append (p := p) (bits := bitsOf b) rfl rfl (List.replicate 4 .low ++ v)
  rw [byteOfBits_bitsOf] at hread
  rw [levels_frameWith, levels_endSeq, levels_dataBits_eq_bitsOf, h.startMark_eq, h.trailerPulses_eq, ← hread]
  simp only [List.append_assoc]

/-! ## The two receptions of a round -/

/-- The SPING after the first master ping and the one after the confirm ping (R145). -/
inductive Reception where
  | first
  | confirm

/-- The state of the wait window. -/
def Reception.wait : Reception → BitVec 5
  | .first => cSpingStart
  | .confirm => cRecvCfmSpingStart

/-- The state that measures the SPING. -/
def Reception.measure : Reception → BitVec 5
  | .first => cSpingEnd
  | .confirm => cRecvCfmSpingEnd

/-- The state after a valid SPING. -/
def Reception.valid : Reception → BitVec 5
  | .first => cRequestCtrl
  | .confirm => cFinish

/-- The value of `ERR_PHASE` an error of it leaves (R29). -/
def Reception.phase : Reception → Bool
  | .first => false
  | .confirm => true

def Reception.measureHandler : Reception → Instr
  | .first => .spingEnd
  | .confirm => .recvCfmSpingEnd

theorem Reception.decodeState_measure (r : Reception) : decodeState r.measure = some r.measureHandler := by cases r <;> rfl

theorem Reception.exec_measureHandler (r : Reception) (s : State) :
    exec r.measureHandler s = spingMeasure r.valid r.phase s := by cases r <;> rfl

theorem Reception.dirAt_measure (r : Reception) : dirAt r.measure = .input := by cases r <;> rfl

theorem Reception.busy_of_measure (r : Reception) {e : Engine} (hs : e.state = r.measure) : e.busy = true := by
  rw [Engine.busy, hs]
  cases r <;> rfl

/-! ## One UI of the adapter's ping -/

/-- A state ready to go on in a quiet environment, with its configuration, its registers and what comes in on the line. -/
structure State.Hears (c : Cfg) (e : Engine) (l : List Level) (s : State) : Prop where
  ready : s.Ready
  quiet : s.Quiet
  cfg_eq : s.cfg = c
  eng_eq : s.eng = e
  line_eq : s.env.line = l

/-- A step in a quiet environment is the engine's step, and a level of the line is gone. -/
theorem State.Hears.step {c : Cfg} {e : Engine} {l : List Level} {s u : State} (h : s.Hears c e l)
    (hu : engineTick { s with out := Out.none } = .next u) (hl : u.eng.codesLegal = true) :
    ∃ t, Machine.step s = .next t ∧ t.Hears c u.eng (l.drop 1) := by
  obtain ⟨hready, hquiet, rfl, rfl, rfl⟩ := h
  obtain ⟨t, ht, htready, htquiet, hteng, -⟩ := step_of_quiet_engineTick hready hquiet hu hl
  have hframe := engineTick_frame hu
  have hend := ht
  rw [step_of_quiet hready hquiet, hu, andThen_next] at hend
  cases hend
  refine ⟨_, ht, htready, htquiet, hframe.cfg_eq, hteng, ?_⟩
  have henv : u.env = s.env := by rw [hframe]
  rw [← henv]
  rfl

/-- A tick in which `TIMER` counts samples no level. -/
theorem State.Hears.wait {c : Cfg} {e : Engine} {l : List Level} {s : State} (h : s.Hears c e l) (hb : e.busy = true)
    (ht : 2 ≤ e.timer.toNat) : ∃ t, Machine.step s = .next t ∧ t.Hears c (e.elapse 1) (l.drop 1) := by
  obtain rfl := h.eng_eq
  obtain ⟨i, hi⟩ := decodeState_of_codesLegal h.ready.codes
  exact h.step (engineTick_of_two_le (s := { s with out := Out.none }) hi hb ht) h.ready.codes

theorem State.Hears.elapse {c : Cfg} {e : Engine} {l : List Level} {s : State} (h : s.Hears c e l) (hb : e.busy = true)
    {k : Nat} (hk : k < e.timer.toNat) : ∃ t, runs k s = .next t ∧ t.Hears c (e.elapse k) (l.drop k) := by
  induction k generalizing e l s with
  | zero => exact ⟨s, rfl, by rwa [Engine.elapse_zero, List.drop_zero]⟩
  | succ k ih =>
    obtain ⟨u, hu, hears⟩ := h.wait hb (by omega)
    obtain ⟨t, ht, hend⟩ := ih hears hb (by rw [Engine.elapse_timer_toNat]; omega)
    refine ⟨t, by rw [runs_succ, hu, andThen_next, ht], ?_⟩
    rwa [Engine.elapse_elapse, List.drop_drop, Nat.add_comm 1 k] at hend

/-- A due sample that is HIGH is counted (R172, R185). -/
theorem State.Hears.sample {c : Cfg} {e : Engine} {l : List Level} {s : State} (h : s.Hears c e (.high :: l))
    {r : Reception} (hs : e.state = r.measure) (hd : e.dir = .input) (ht : e.timer.toNat ≤ 1)
    (hp : (e.phaseCounter + 1).toNat ≤ c.spingMaxUi) :
    ∃ t, Machine.step s = .next t ∧ t.Hears c { e with phaseCounter := e.phaseCounter + 1, timer := 4 } l := by
  obtain rfl := h.eng_eq
  obtain rfl := h.cfg_eq
  have hi : decodeState s.eng.state = some r.measureHandler := by rw [hs]; exact r.decodeState_measure
  have htick := engineTick_of_le_one (s := { s with out := Out.none }) hi (r.busy_of_measure hs) ht
  have hlevel : ({ s with eng := { s.eng with timer := 0 }, out := Out.none } : State).lineIn = .high := by
    simp [State.lineIn, h.line_eq]
  have hsample := spingMeasure_of_high (s := { s with eng := { s.eng with timer := 0 }, out := Out.none }) hd hlevel
    r.valid r.phase
  rw [if_neg (Nat.not_lt.2 hp)] at hsample
  exact h.step (htick.trans ((r.exec_measureHandler _).trans hsample)) h.ready.codes

/-- Four ticks with at most 4 to the next sample hold exactly one sample. -/
theorem runs_four_of_high {c : Cfg} {e : Engine} {l : List Level} {s : State}
    (h : s.Hears c e (List.replicate 4 .high ++ l)) {r : Reception} (hs : e.state = r.measure) (hd : e.dir = .input)
    (hpos : 1 ≤ e.timer.toNat) (hle : e.timer.toNat ≤ 4) (hp : (e.phaseCounter + 1).toNat ≤ c.spingMaxUi) :
    ∃ t, runs 4 s = .next t ∧ t.eng = { e with phaseCounter := e.phaseCounter + 1 } := by
  have hb := r.busy_of_measure hs
  obtain ⟨before, after, hsplit, hbefore⟩ : ∃ j k, j + (1 + k) = 4 ∧ e.timer.toNat = j + 1 :=
    ⟨e.timer.toNat - 1, 4 - e.timer.toNat, by omega, by omega⟩
  have hline : (List.replicate 4 Level.high ++ l).drop before = .high :: (List.replicate after .high ++ l) := by
    rw [List.drop_append_of_le_length (by simp; omega), List.drop_replicate, show 4 - before = after + 1 by omega,
      List.replicate_succ, List.cons_append]
  obtain ⟨u, hu, hears⟩ := h.elapse hb (k := before) (by omega)
  rw [hline] at hears
  obtain ⟨v, hv, hears⟩ := hears.sample hs hd (by rw [Engine.elapse_timer_toNat]; omega) hp
  obtain ⟨t, ht, hend⟩ := hears.elapse hb (k := after) (by show after < 4; omega)
  refine ⟨t, ?_, ?_⟩
  · rw [← hsplit, runs_add, hu, andThen_next, runs_add, runs_succ, hv, andThen_next, runs_zero, andThen_next, ht]
  · have htimer : BitVec.ofNat 32 ((4 : BitVec 32).toNat - after) = e.timer := by
      refine BitVec.eq_of_toNat_eq ?_
      simp; omega
    rw [hend.eng_eq]
    simp only [Engine.elapse, htimer]

/-- Settles O29: the symbol puts four HIGH levels on the line, and one of the next four ticks samples. -/
theorem slavePingCountsOneSample : Obligations.SlavePingCountsOneSample := by
  intro s hinv hquiet hstate hle hroom
  obtain ⟨r, hs⟩ : ∃ r : Reception, s.eng.state = r.measure := hstate.elim (⟨.first, ·⟩) (⟨.confirm, ·⟩)
  obtain ⟨-, -, -, -, hmax, -⟩ := cfgWf_bounds hinv.cfg_wf
  have hd : s.eng.dir = .input := by rw [hinv.eng_inv.dir_eq, hs]; exact r.dirAt_measure
  have hb := r.busy_of_measure hs
  have hp : (s.eng.phaseCounter + 1).toNat ≤ s.cfg.spingMaxUi := by
    rw [phaseCounter_succ_toNat (by omega)]
    exact hroom
  have hq : ({ s with env := { s.env with line := List.replicate 4 .high ++ s.env.line } } : State).Quiet :=
    ⟨hquiet.script_nil, hquiet.rst_nil, hquiet.bench_none, hquiet.phase_idle, hquiet.waiting_nil⟩
  obtain ⟨u, hu, heng⟩ := runs_four_of_high ⟨hq.ready hinv.cfg_wf hinv.eng_inv.codesLegal, hq, rfl, rfl, rfl⟩ hs hd
    (hinv.eng_inv.timer_pos hb) hle hp
  exact ⟨_, u, rfl, hu, heng⟩

/-! ## The samples of a reception -/

/-- The state with a level on the line. -/
def State.withSample (l : Level) (s : State) : State := { s with env := { s.env with line := [l] } }

@[simp] theorem State.withSample_eng (l : Level) (s : State) : (s.withSample l).eng = s.eng := rfl
@[simp] theorem State.withSample_cfg (l : Level) (s : State) : (s.withSample l).cfg = s.cfg := rfl

theorem spingValid_iff {c : Cfg} {w : Nat} : spingValid c w = true ↔ c.spingMinUi ≤ w ∧ w ≤ c.spingMaxUi := by
  simp [spingValid]

/-- In the wait window a sample goes to the handler that waits. -/
theorem receive_of_wait {r : Reception} {s : State} (hs : s.eng.state = r.wait) (l : Level) (ls : List Level) :
    receive (l :: ls) s = andThen (spingWait r.measure r.phase (s.withSample l)) (receive ls) := by
  cases r <;> simp only [receive, hs] <;> rfl

/-- While a SPING is measured a sample goes to the handler that measures. -/
theorem receive_of_measure {r : Reception} {s : State} (hs : s.eng.state = r.measure) (l : Level) (ls : List Level) :
    receive (l :: ls) s = andThen (spingMeasure r.valid r.phase (s.withSample l)) (receive ls) := by
  cases r <;> simp only [receive, hs] <;> rfl

/-- After the decision no sample is taken. -/
theorem receive_of_error {s : State} (hs : s.eng.state = cError) (ls : List Level) : receive ls s = .next s := by
  cases ls with
  | nil => rfl
  | cons l ls => simp only [receive, hs]; rfl

theorem receive_of_valid {r : Reception} {s : State} (hs : s.eng.state = r.valid) (ls : List Level) :
    receive ls s = .next s := by
  cases ls with
  | nil => rfl
  | cons l ls => cases r <;> simp only [receive, hs] <;> rfl

/-- What the registers and the event show of an answer of `recv_sping` (R145). -/
def Shows (r : Reception) (c : Cfg) (t : State) : SpingResult → Prop
  | .valid w => spingValid c w = true ∧ t.eng.phaseCounter.toNat = w ∧ t.eng.state = r.valid
  | .err k n => t.eng.state = cError ∧ t.eng.lastError = k ∧ t.eng.phaseCounter.toNat = n ∧ t.eng.errPhase = r.phase
      ∧ t.out.event = .error
  | .undecided => t.eng.state = r.wait ∨ t.eng.state = r.measure

/-- An error with a code and a count is shown, whatever samples follow. -/
theorem receive_after_error {r : Reception} {c : Cfg} {s : State} (k : BitVec 3) (ls : List Level) :
    ∃ t, receive ls (raiseSpingError k r.phase s) = .next t ∧ Shows r c t (.err k s.eng.phaseCounter.toNat) :=
  ⟨_, receive_of_error rfl ls, rfl, rfl, rfl, rfl, rfl⟩

/-- From the first HIGH sample on, the measuring handler counts and decides as the loop of `recv_sping` does. -/
theorem receive_shows_recvSpingHigh {r : Reception} {s : State} (ls : List Level) (hmax : s.cfg.spingMaxUi ≤ 254)
    (hd : s.eng.dir = .input) (hs : s.eng.state = r.measure) (hle : s.eng.phaseCounter.toNat ≤ s.cfg.spingMaxUi) :
    ∃ t, receive ls s = .next t ∧ Shows r s.cfg t (recvSpingHigh s.cfg s.eng.phaseCounter.toNat ls) := by
  induction ls generalizing s with
  | nil => exact ⟨s, rfl, .inr hs⟩
  | cons l ls ih =>
    rw [receive_of_measure hs]
    cases l with
    | high =>
      have hsucc := phaseCounter_succ_toNat (p := s.eng.phaseCounter) (by omega)
      rw [spingMeasure_of_high (s := s.withSample .high) hd rfl, recvSpingHigh, ← hsucc, State.withSample_eng,
        State.withSample_cfg]
      split
      next => exact receive_after_error spingErr3 ls
      next hfits =>
        rw [andThen_next]
        exact ih hmax hd hs (Nat.not_lt.1 hfits)
    | low =>
      rw [spingMeasure_of_low (s := s.withSample .low) hd rfl, recvSpingHigh, State.withSample_eng,
        State.withSample_cfg]
      split
      next => exact receive_after_error spingErr2 ls
      next hlong =>
        exact ⟨_, receive_of_valid rfl ls, spingValid_iff.2 ⟨Nat.not_lt.1 hlong, hle⟩, rfl, rfl⟩

/-- In the wait window the waiting handler counts and decides as `recv_sping` does. -/
theorem receive_shows_recvSpingLow {r : Reception} {s : State} (ls : List Level) (hwf : cfgWf s.cfg = true)
    (hd : s.eng.dir = .input) (hs : s.eng.state = r.wait) (hlt : s.eng.phaseCounter.toNat < s.cfg.waitSpingCount) :
    ∃ t, receive ls s = .next t ∧ Shows r s.cfg t (recvSpingLow s.cfg s.eng.phaseCounter.toNat ls) := by
  induction ls generalizing s with
  | nil => exact ⟨s, rfl, .inl hs⟩
  | cons l ls ih =>
    obtain ⟨-, hwait, hmin, hminmax, hmax, -⟩ := cfgWf_bounds hwf
    rw [receive_of_wait hs]
    cases l with
    | high =>
      rw [spingWait_of_high (s := s.withSample .high) hd rfl, recvSpingLow, andThen_next]
      exact receive_shows_recvSpingHigh ls hmax hd rfl (hmin.trans hminmax)
    | low =>
      have hsucc := phaseCounter_succ_toNat (p := s.eng.phaseCounter) (by omega)
      rw [spingWait_of_low (s := s.withSample .low) hd rfl, recvSpingLow, ← hsucc, State.withSample_eng,
        State.withSample_cfg]
      split
      next => exact receive_after_error spingErr1 ls
      next hroom =>
        rw [andThen_next]
        exact ih hwf hd hs (Nat.not_le.1 hroom)

/-- Settles O32: the wait window from its first sample on, with 0 samples counted. -/
theorem receptionRealisesRecvSping : Obligations.ReceptionRealisesRecvSping := by
  intro s ls hwf hd hp hstate
  obtain ⟨r, hs⟩ : ∃ r : Reception, s.eng.state = r.wait := hstate.elim (⟨.first, ·⟩) (⟨.confirm, ·⟩)
  have hzero : s.eng.phaseCounter.toNat = 0 := by rw [hp]; rfl
  have hwait : 1 ≤ s.cfg.waitSpingCount := (cfgWf_bounds hwf).1
  obtain ⟨t, ht, hshows⟩ := receive_shows_recvSpingLow ls hwf hd hs (by omega)
  refine ⟨t, ht, ?_⟩
  rw [hzero] at hshows
  change Shows r s.cfg t (recvSping s.cfg ls) at hshows
  generalize recvSping s.cfg ls = res at hshows ⊢
  rw [hs]
  cases res with
  | valid w => cases r <;> exact hshows
  | err k n => cases r <;> exact hshows
  | undecided => cases r <;> exact hshows

end Sys2Proof.Machine

/-! Family `43_handshake_fsm.md`: what the handler of each state does (R167 to R188), and the order in which the states
follow each other (R165). -/

namespace Sys2Proof.Machine

/-! ## Handlers with a fixed action -/

/-- Settles O13: these handlers are one update of the registers, or none. -/
theorem terminalAndLineTakingHandlers : Obligations.TerminalAndLineTakingHandlers :=
  fun _ => ⟨rfl, rfl, rfl, rfl, rfl, rfl, rfl⟩

/-- Settles O15: these handlers are one update of the registers, and none of them writes `DOUT`. -/
theorem lineReleasingHandlers : Obligations.LineReleasingHandlers :=
  fun _ => ⟨rfl, rfl, rfl, rfl⟩

/-- Settles O14: each is one `LineWrite`, which has a meaning while the pad is an output. -/
theorem fallingEdgeHandlers : Obligations.FallingEdgeHandlers :=
  fun _ hd => ⟨lineWrite_of_output hd _ _, lineWrite_of_output hd _ _⟩

/-! ## The samples of the two receptions -/

section
variable {s : State} (hd : s.eng.dir = .input) (m : BitVec 5) (p : Bool)
include hd

/-- A LOW sample while the wait window is open (R171, R184). -/
theorem spingWait_of_low_of_lt (hl : s.lineIn = .low) (hlt : (s.eng.phaseCounter + 1).toNat < s.cfg.waitSpingCount) :
    spingWait m p s = .next { s with eng := { s.eng with phaseCounter := s.eng.phaseCounter + 1, timer := 4 } } := by
  rw [spingWait_of_low hd hl, if_neg (Nat.not_le.2 hlt)]

/-- The LOW sample that closes the wait window is the timeout (R251, R255). -/
theorem spingWait_of_low_of_le (hl : s.lineIn = .low) (hle : s.cfg.waitSpingCount ≤ (s.eng.phaseCounter + 1).toNat) :
    spingWait m p s = .next { s with
      eng := { s.eng with phaseCounter := s.eng.phaseCounter + 1, dir := .output, dout := .low, state := cError,
                          lastError := 1, errPhase := p, err := true, timer := 0 }
      out := { s.out with event := .error } } := by
  rw [spingWait_of_low hd hl, if_pos hle]
  rfl

/-- A HIGH sample that a SPING may still have (R172, R185). -/
theorem spingMeasure_of_high_of_le (hl : s.lineIn = .high) (hle : (s.eng.phaseCounter + 1).toNat ≤ s.cfg.spingMaxUi) :
    spingMeasure m p s = .next { s with eng := { s.eng with phaseCounter := s.eng.phaseCounter + 1, timer := 4 } } := by
  rw [spingMeasure_of_high hd hl, if_neg (Nat.not_lt.2 hle)]

/-- The HIGH sample that makes a SPING too long (R253, R255). -/
theorem spingMeasure_of_high_of_lt (hl : s.lineIn = .high) (hlt : s.cfg.spingMaxUi < (s.eng.phaseCounter + 1).toNat) :
    spingMeasure m p s = .next { s with
      eng := { s.eng with phaseCounter := s.eng.phaseCounter + 1, dir := .output, dout := .low, state := cError,
                          lastError := 3, errPhase := p, err := true, timer := 0 }
      out := { s.out with event := .error } } := by
  rw [spingMeasure_of_high hd hl, if_pos hlt]
  rfl

/-- The LOW sample after a SPING that was too short (R252, R255). -/
theorem spingMeasure_of_low_of_lt (hl : s.lineIn = .low) (hlt : s.eng.phaseCounter.toNat < s.cfg.spingMinUi) :
    spingMeasure m p s = .next { s with
      eng := { s.eng with dir := .output, dout := .low, state := cError, lastError := 2, errPhase := p, err := true,
                          timer := 0 }
      out := { s.out with event := .error } } := by
  rw [spingMeasure_of_low hd hl, if_pos hlt]
  rfl

/-- The LOW sample after a SPING that was long enough (R172, R185). -/
theorem spingMeasure_of_low_of_le (hl : s.lineIn = .low) (hle : s.cfg.spingMinUi ≤ s.eng.phaseCounter.toNat) :
    spingMeasure m p s = .next { s with eng := { s.eng with state := m, timer := 4 } } := by
  rw [spingMeasure_of_low hd hl, if_neg (Nat.not_lt.2 hle)]

end

/-- Settles O16: both handlers are `spingWait`, with their own next state and `ERR_PHASE`. -/
theorem spingWaitHandlers : Obligations.SpingWaitHandlers := by
  refine fun s hd => ⟨fun hl => ?first, fun hl hlt => ?stillOpen, fun hl hle => ?timeout⟩
  case first => exact ⟨spingWait_of_high hd hl _ _, spingWait_of_high hd hl _ _⟩
  case stillOpen => exact ⟨spingWait_of_low_of_lt hd _ _ hl hlt, spingWait_of_low_of_lt hd _ _ hl hlt⟩
  case timeout => exact ⟨spingWait_of_low_of_le hd _ _ hl hle, spingWait_of_low_of_le hd _ _ hl hle⟩

/-- Settles O17: both handlers are `spingMeasure`, with their own next state and `ERR_PHASE`. -/
theorem spingMeasureHandlers : Obligations.SpingMeasureHandlers := by
  refine fun s hd => ⟨fun hl hle => ?counted, fun hl hlt => ?tooLong, fun hl hlt => ?tooShort, fun hl hle => ?valid⟩
  case counted => exact ⟨spingMeasure_of_high_of_le hd _ _ hl hle, spingMeasure_of_high_of_le hd _ _ hl hle⟩
  case tooLong => exact ⟨spingMeasure_of_high_of_lt hd _ _ hl hlt, spingMeasure_of_high_of_lt hd _ _ hl hlt⟩
  case tooShort => exact ⟨spingMeasure_of_low_of_lt hd _ _ hl hlt, spingMeasure_of_low_of_lt hd _ _ hl hlt⟩
  case valid => exact ⟨spingMeasure_of_low_of_le hd _ _ hl hle, spingMeasure_of_low_of_le hd _ _ hl hle⟩

/-! ## The handlers that play a byte -/

/-- While the pad is an output, the pulse that `PHASE_COUNTER` selects is driven. -/
theorem withPulse_lineWrite_of_output {s : State} {seq : List Pulse} {p : Pulse} (hd : s.eng.dir = .output)
    (hp : seq[s.eng.phaseCounter.toNat]? = some p) (k : Pulse → Engine → Engine) :
    withPulse seq (fun p => lineWrite p.level (k p) s) s
      = .next { s with eng := k p { s.eng with dout := p.level } } := by
  rw [withPulse_of_some hp, lineWrite_of_output hd]

/-- Settles O18: the mark has a pulse at 0 and one at 1, and the one at 1 is its last. -/
theorem startTransferPlaysTheMark : Obligations.StartTransferPlaysTheMark := by
  intro s m0 m1 hd hmark
  change startMark s.cfg (s.eng.pendingByte.getLsbD 7) = [m0, m1] at hmark
  refine ⟨fun h0 => ?first, fun h1 => ?last⟩
  case first =>
    have hpulse : (startMark s.cfg (s.eng.pendingByte.getLsbD 7))[s.eng.phaseCounter.toNat]? = some m0 := by
      rw [hmark, h0]; rfl
    have hplay : exec .startTransfer s = _ := withPulse_lineWrite_of_output hd hpulse _
    rw [hplay, if_neg (show ¬s.eng.phaseCounter = 1 by rw [h0]; decide)]
    rfl
  case last =>
    have hpulse : (startMark s.cfg (s.eng.pendingByte.getLsbD 7))[s.eng.phaseCounter.toNat]? = some m1 := by
      rw [hmark, h1]; rfl
    have hplay : exec .startTransfer s = _ := withPulse_lineWrite_of_output hd hpulse _
    rw [hplay, if_pos h1]
    rfl

@[simp] theorem Level.ofBool_toBool (l : Level) : Level.ofBool l.toBool = l := by cases l <;> rfl

/-- While the pad is an output, the bit that `PHASE_COUNTER` selects is driven (R175). -/
theorem execSendData_of_output {s : State} (hd : s.eng.dir = .output) (hp : s.eng.phaseCounter.toNat ≤ 7) {l : Level}
    (hl : l.toBool = s.eng.pendingByte.getLsbD (7 - s.eng.phaseCounter.toNat)) :
    execSendData s = .next { s with eng :=
      if s.eng.phaseCounter = 7 then { s.eng with dout := l, phaseCounter := 0, state := cEndTransfer, timer := 4 }
      else { s.eng with dout := l, phaseCounter := s.eng.phaseCounter + 1, timer := 4 } } := by
  rw [execSendData, withDataBit_of_le hp, lineWrite_of_output hd, ← hl, Level.ofBool_toBool]
  rfl

/-- Settles O19: bit 0 is the one selected at `PHASE_COUNTER` 7. -/
theorem sendDataDrivesTheBit : Obligations.SendDataDrivesTheBit := by
  refine fun s l hd => ⟨fun hlt hl => ?before, fun h7 hl => ?last⟩
  case before =>
    have hne : ¬s.eng.phaseCounter = 7 := fun h => by rw [h] at hlt; exact absurd hlt (by decide)
    have hsend : exec .sendData s = _ := execSendData_of_output hd hlt.le hl
    rw [hsend, if_neg hne]
  case last =>
    have hsend : exec .sendData s = _ := execSendData_of_output hd h7.le (by rw [h7]; exact hl)
    rw [hsend, if_pos (BitVec.eq_of_toNat_eq h7)]

/-- R176: the lengths of `end_seq` with the shapes of R141. -/
theorem DefaultShapes.endSeq_length {c : Cfg} (h : DefaultShapes c) (p : Bool) :
    (endSeq c p).length = if p then 5 else 3 := by
  rw [h.endSeq_eq]
  cases p <;> rfl

/-- Settles O20: the pulse selected is driven, and its place decides whether another one follows. -/
theorem endTransferPlaysTheEndSequence : Obligations.EndTransferPlaysTheEndSequence := by
  intro s p hd hp
  have hplay : exec .endTransfer s = _ := withPulse_lineWrite_of_output hd hp _
  refine ⟨fun hshapes => hshapes.endSeq_length _, fun hmore => ?before, fun hlast => ?last⟩
  case before =>
    rw [hplay, if_neg (show ¬s.eng.phaseCounter.toNat = (endSeq s.cfg s.eng.parity).length - 1 by omega)]
    rfl
  case last =>
    rw [hplay, if_pos (show s.eng.phaseCounter.toNat = (endSeq s.cfg s.eng.parity).length - 1 by omega)]
    rfl

/-- Settles O21: `PHASE_COUNTER` says which edge is due. -/
theorem sendEndMpingDrivesBothEdges : Obligations.SendEndMpingDrivesBothEdges := by
  refine fun s hd => ⟨fun h0 => ?rising, fun hne => ?falling⟩
  case rising => exact (if_pos h0).trans (lineWrite_of_output hd _ _)
  case falling => exact (if_neg hne).trans (lineWrite_of_output hd _ _)

/-! ## The end of a round -/

/-- The last round (R186). -/
theorem execFinish_of_le {s : State} (h : s.cfg.afcCommCnt ≤ (s.eng.roundCount + 1).toNat) :
    execFinish s = .next { s with
      eng := { s.eng with dir := .output, dout := .low, phaseCounter := 0, roundCount := s.eng.roundCount + 1,
                          state := cOk, timer := 0, done := true }
      out := { s.out with event := .done } } := if_pos h

/-- A round that is not the last (R186). -/
theorem execFinish_of_lt {s : State} (h : (s.eng.roundCount + 1).toNat < s.cfg.afcCommCnt) :
    execFinish s = .next { s with
      eng := { s.eng with dir := .output, dout := .low, phaseCounter := 0, roundCount := s.eng.roundCount + 1,
                          state := cMpingStart, timer := BitVec.ofNat 32 (roundGapTicks s.cfg) } } :=
  if_neg (Nat.not_le.2 h)

/-- Settles O22: both branches of the test on the new count. -/
theorem finishCountsTheRound : Obligations.FinishCountsTheRound :=
  fun _ => ⟨execFinish_of_le, execFinish_of_lt⟩

/-! ## The order of the states (R165) -/

theorem lineWrite_state {s t : State} {l : Level} {k : Engine → Engine} (h : lineWrite l k s = .next t) :
    t.eng.state = (k { s.eng with dout := l }).state := by
  obtain ⟨-, rfl⟩ := lineWrite_eq_next.1 h
  rfl

/-- A state that plays a sequence is kept until the last element of it. -/
theorem lineWrite_playing_state {s t : State} {l : Level} {last : Engine → Prop} [DecidablePred last] {c c' : BitVec 5}
    {following : Engine → BitVec 8} {d : Nat} (hs : s.eng.state = c)
    (h : lineWrite l (fun e => if last e then (e.setPhase 0).goTo c' d else (e.setPhase (following e)).stay d) s = .next t) :
    t.eng.state ∈ [c, c'] := by
  rw [lineWrite_state h]
  split <;> simp [hs]

/-- A sample of the wait window keeps the state, begins the measurement or is an error. -/
theorem spingWait_state {s t : State} {c m : BitVec 5} {p : Bool} (hs : s.eng.state = c) (h : spingWait m p s = .next t) :
    t.eng.state ∈ [c, m, cError] := by
  cases hd : s.eng.dir with
  | output => rw [spingWait_of_output hd] at h; cases h
  | input =>
    cases hl : s.lineIn with
    | high => rw [spingWait_of_high hd hl] at h; cases h; simp
    | low =>
      rw [spingWait_of_low hd hl] at h
      split at h <;> cases h
      · simp
      · simp [hs]

/-- A sample of a SPING keeps the state, ends a valid SPING or is an error. -/
theorem spingMeasure_state {s t : State} {c m : BitVec 5} {p : Bool} (hs : s.eng.state = c) (h : spingMeasure m p s = .next t) :
    t.eng.state ∈ [c, m, cError] := by
  cases hd : s.eng.dir with
  | output => rw [spingMeasure_of_output hd] at h; cases h
  | input =>
    cases hl : s.lineIn with
    | high =>
      rw [spingMeasure_of_high hd hl] at h
      split at h <;> cases h
      · simp
      · simp [hs]
    | low => rw [spingMeasure_of_low hd hl] at h; split at h <;> cases h <;> simp

/-- A state that plays a list of pulses is kept until the last pulse, and stops where no pulse is selected. -/
theorem withPulse_playing_state {s t : State} {seq : List Pulse} {last : Engine → Prop} [DecidablePred last] {c c' : BitVec 5}
    {following : Engine → BitVec 8} (hs : s.eng.state = c)
    (h : withPulse seq (fun p => lineWrite p.level
      (fun e => if last e then (e.setPhase 0).goTo c' p.ticks else (e.setPhase (following e)).stay p.ticks) s) s = .next t) :
    t.eng.state ∈ [c, c'] := by
  unfold withPulse at h
  split at h
  next => exact lineWrite_playing_state hs h
  next => cases h

theorem execSendData_state {s t : State} {c : BitVec 5} (hs : s.eng.state = c) (h : execSendData s = .next t) :
    t.eng.state ∈ [c, cEndTransfer] := by
  unfold execSendData withDataBit at h
  split at h
  next => exact lineWrite_playing_state hs h
  next => cases h

theorem execSendEndMping_state {s t : State} {c : BitVec 5} (hs : s.eng.state = c) (h : execSendEndMping s = .next t) :
    t.eng.state ∈ [c, cWaitData] := by
  unfold execSendEndMping at h
  split at h
  next => rw [lineWrite_state h]; simp [hs]
  next => rw [lineWrite_state h]; simp

theorem execFinish_state {s t : State} (h : execFinish s = .next t) : t.eng.state ∈ [cMpingStart, cOk] := by
  rcases Nat.lt_or_ge (s.eng.roundCount + 1).toNat s.cfg.afcCommCnt with hlt | hle
  · rw [execFinish_of_lt hlt] at h; cases h; simp
  · rw [execFinish_of_le hle] at h; cases h; simp

/-- The handler of a busy state leads to one of the successors of the state. -/
theorem handler_state_mem_successors {s t : State} {i : Instr} (hi : BusyHandler s.eng.state i) (h : exec i s = .next t) :
    t.eng.state ∈ successors s.eng.state := by
  generalize hc : s.eng.state = c at hi ⊢
  cases hi with
  | mpingStart => cases h; exact List.mem_singleton.2 rfl
  | mpingEnd => exact List.mem_singleton.2 (lineWrite_state h)
  | waitSping => cases h; exact List.mem_singleton.2 rfl
  | spingStart => exact spingWait_state hc h
  | spingEnd => exact spingMeasure_state hc h
  | requestCtrl => cases h; exact List.mem_singleton.2 rfl
  | startTransfer => exact withPulse_playing_state (following := fun _ => 1) hc h
  | sendData => exact execSendData_state hc h
  | endTransfer => exact withPulse_playing_state hc h
  | sendEndMping => exact execSendEndMping_state hc h
  | waitData => cases h; exact List.mem_singleton.2 rfl
  | recvDataStart => cases h; exact List.mem_singleton.2 rfl
  | recvDataEnd => cases h; exact List.mem_singleton.2 rfl
  | sendCfmMpingStart => cases h; exact List.mem_singleton.2 rfl
  | sendCfmMpingEnd => exact List.mem_singleton.2 (lineWrite_state h)
  | waitCfmSping => cases h; exact List.mem_singleton.2 rfl
  | recvCfmSpingStart => exact spingWait_state hc h
  | recvCfmSpingEnd => exact spingMeasure_state hc h
  | finish => exact execFinish_state h

/-- A state in which the block is not busy is its own successor. -/
theorem mem_successors_of_rest {e : Engine} (hb : e.busy = false) : e.state ∈ successors e.state := by
  rcases (busy_eq_false_iff e).1 hb with hs | hs | hs <;> rw [hs] <;> decide

/-- Settles O47: `TIMER` says whether the tick is counted or the handler runs, as in O36. -/
theorem statesFollowThePipeline : Obligations.StatesFollowThePipeline := by
  intro s t h
  cases hi : decodeState s.eng.state with
  | none => rw [engineTick_of_none hi] at h; cases h
  | some i =>
    refine ⟨fun ⟨ht, hb⟩ => ?counted, fun hdue => ?handled⟩
    case counted =>
      rw [engineTick_of_two_le hi hb ht] at h
      cases h
      rfl
    case handled =>
      cases hb : s.eng.busy with
      | false => rw [engineTick_of_rest hb h]; exact mem_successors_of_rest hb
      | true =>
        have ht : s.eng.timer.toNat ≤ 1 := hdue.resolve_right (by simp [hb])
        rw [engineTick_of_le_one hi hb ht] at h
        exact handler_state_mem_successors (s := { s with eng := { s.eng with timer := 0 } })
          (busyHandler_of_decodeState hb hi) h

end Sys2Proof.Machine

/-! Family `44_host_commands.md`: what each command does (R202 to R209), the answer to every word (R201), and the words that disturb
nothing (R202, R62, R92). -/

namespace Sys2Proof.Machine

/-! ## The commands with an acceptance test -/

theorem exec_loadb_of_rest {s : State} (hb : s.eng.busy = false) (b : Byte) :
    exec (.loadb b) s = accept (fun e => { e with pendingByte := b, parity := parity b }) s :=
  if_neg (by simp [hb])

theorem exec_loadb_of_busy {s : State} (hb : s.eng.busy = true) (b : Byte) : exec (.loadb b) s = reject .rejBusy s :=
  if_pos hb

theorem exec_start_of_rest {s : State} (hb : s.eng.busy = false) : exec .start s = accept Engine.launch s :=
  if_neg (by simp [hb])

theorem exec_start_of_busy {s : State} (hb : s.eng.busy = true) : exec .start s = reject .rejBusy s := if_pos hb

theorem exec_forceok_of_error {s : State} (he : s.eng.state = cError) : exec .forceok s = accept Engine.forceOk s := if_pos he

theorem exec_forceok_of_ne_error {s : State} (he : s.eng.state ≠ cError) : exec .forceok s = reject .rejState s := if_neg he

/-- The status registers are the numbers 0 to 4 (R44, R62). -/
theorem exists_regRead_of_le_four {n : BitVec 4} (h : n.toNat ≤ 4) (e : Engine) : ∃ d, regRead e n = some d := by
  unfold regRead
  split
  case h_6 =>
    simp only [imp_false] at *
    omega
  all_goals exact ⟨_, rfl⟩

theorem exec_rd_of_regRead {s : State} {n : BitVec 4} {d : BitVec 32} (h : regRead s.eng n = some d) :
    exec (.rd n) s = .next (s.respond .ack d) := by
  have hexec : exec (.rd n) s = execRd n s := rfl
  rw [hexec, execRd, h]

theorem busy_eq_true_of_not_rest {e : Engine} (h : ¬(e.state = cIdle ∨ e.state = cOk ∨ e.state = cError)) : e.busy = true :=
  Bool.eq_true_of_not_eq_false (mt (busy_eq_false_iff e).1 h)

/-- Settles O5: each command is `accept` with its register update. -/
theorem nopSwonSwoffAlwaysAccepted : Obligations.NopSwonSwoffAlwaysAccepted :=
  ⟨Laws.RoundTrip.nop rfl, Laws.RoundTrip.swon rfl, Laws.RoundTrip.swoff rfl,
    fun s => ⟨accept_eq id s, accept_eq _ s, accept_eq _ s⟩⟩

/-- Settles O6: the resting states are those in which the block is not busy. -/
theorem loadbWritesByteAndParity : Obligations.LoadbWritesByteAndParity :=
  fun b _ => ⟨Laws.RoundTrip.loadb b rfl,
    fun hrest => exec_loadb_of_rest ((busy_eq_false_iff _).2 hrest) b,
    fun hrest => exec_loadb_of_busy (busy_eq_true_of_not_rest hrest) b⟩

/-- Settles O7: as O6, with the registers of `Engine.launch`. -/
theorem startClaimsTheLine : Obligations.StartClaimsTheLine :=
  ⟨Laws.RoundTrip.start rfl, fun _ =>
    ⟨fun hrest => exec_start_of_rest ((busy_eq_false_iff _).2 hrest),
      fun hrest => exec_start_of_busy (busy_eq_true_of_not_rest hrest)⟩⟩

/-- Settles O8: the registers `Engine.detach` leaves are those of R45, whatever they were. -/
theorem detachResetsTheEngine : Obligations.DetachResetsTheEngine :=
  ⟨Laws.RoundTrip.detach rfl, fun s => accept_eq Engine.detach s⟩

/-- Settles O9: `ERROR` is the one state in which it is accepted. -/
theorem forceokLeavesErrorOnly : Obligations.ForceokLeavesErrorOnly :=
  ⟨Laws.RoundTrip.forceok rfl, fun _ => ⟨exec_forceok_of_error, exec_forceok_of_ne_error⟩⟩

/-- Settles O10: the numbers 0 to 4 have a register, the others are refused. -/
theorem rdAnswersTheStatusRegister : Obligations.RdAnswersTheStatusRegister := by
  refine fun n s => ⟨Laws.RoundTrip.rd n rfl, fun hle => ?_, fun hlt => exec_rd_of_five_le hlt s⟩
  obtain ⟨d, hd⟩ := exists_regRead_of_le_four hle s.eng
  exact ⟨d, hd, exec_rd_of_regRead hd⟩

/-! ## The answer to a word -/

/-- The response a command gets (R202 to R209). -/
def commandVerdict (e : Engine) : Instr → RespCode
  | .loadb _ | .start => if e.busy = true then .rejBusy else .ack
  | .forceok => if e.state ≠ cError then .rejState else .ack
  | .rd n => if 4 < n.toNat then .rejIllegal else .ack
  | _ => .ack

/-- The response a word gets at the command port. -/
def wordVerdict (e : Engine) (w : BitVec 16) : RespCode := (decodeCmd w).elim .rejIllegal (commandVerdict e)

/-- The two outcomes at the command port: an `ACK` with its register update and data, or `Reject(r)` (R201). -/
inductive Answers (s : State) : RespCode → Outcome → Prop
  | accepted (f : Engine → Engine) (d : BitVec 32) : Answers s .ack (.next ((s.mapEng f).respond .ack d))
  | rejected {r : RespCode} : r ≠ .ack → Answers s r (reject r s)

/-- Every command is answered by its verdict. -/
theorem exec_answers {i : Instr} (hi : IsCommand i) (s : State) : Answers s (commandVerdict s.eng i) (exec i s) := by
  cases hi with
  | nop => exact .accepted id 0
  | swon => exact .accepted (fun e => { e with switch := true }) 0
  | swoff => exact .accepted (fun e => { e with switch := false }) 0
  | detach => exact .accepted Engine.detach 0
  | loadb b =>
    cases hb : s.eng.busy with
    | true => rw [commandVerdict, if_pos hb, exec_loadb_of_busy hb]; exact .rejected nofun
    | false => rw [commandVerdict, if_neg (by simp [hb]), exec_loadb_of_rest hb]; exact .accepted _ 0
  | start =>
    cases hb : s.eng.busy with
    | true => rw [commandVerdict, if_pos hb, exec_start_of_busy hb]; exact .rejected nofun
    | false => rw [commandVerdict, if_neg (by simp [hb]), exec_start_of_rest hb]; exact .accepted _ 0
  | forceok =>
    by_cases he : s.eng.state = cError
    · rw [commandVerdict, if_neg (not_not.2 he), exec_forceok_of_error he]
      exact .accepted _ 0
    · rw [commandVerdict, if_pos he, exec_forceok_of_ne_error he]
      exact .rejected nofun
  | rd n =>
    by_cases hn : 4 < n.toNat
    · rw [commandVerdict, if_pos hn, exec_rd_of_five_le hn]
      exact .rejected nofun
    · obtain ⟨d, hd⟩ := exists_regRead_of_le_four (not_lt.1 hn) s.eng
      rw [commandVerdict, if_neg hn, exec_rd_of_regRead hd]
      exact .accepted id d

/-- Every word is answered by its verdict. -/
theorem runWord_answers (w : BitVec 16) (s : State) : Answers s (wordVerdict s.eng w) (runWord (some w) s) := by
  cases hi : decodeCmd w with
  | none => rw [wordVerdict, hi, runWord_of_illegal hi]; exact .rejected nofun
  | some i => rw [wordVerdict, hi, runWord_of_decodeCmd hi]; exact exec_answers (isCommand_of_decodeCmd hi) s

/-! ## The fields of a word that decodes, and the tests of R201 on them -/

/-- The field `OP` of a command (R82). -/
def opOf : Instr → BitVec 4
  | .swon => 1
  | .swoff => 2
  | .loadb _ => 3
  | .start => 4
  | .detach => 5
  | .forceok => 6
  | .rd _ => 7
  | _ => 0

theorem cmdOp_wordLoadb (b : Byte) : cmdOp (wordLoadb b) = 3 := by
  have := b.isLt
  refine BitVec.eq_of_toNat_eq ?_
  rw [cmdOp, BitVec.extractLsb'_toNat, wordLoadb_toNat, Nat.shiftRight_eq_div_pow]
  simp only [BitVec.reduceToNat]
  omega

theorem cmdOp_wordRd (n : BitVec 4) : cmdOp (wordRd n) = 7 := by
  revert n
  decide

theorem wordRd_extractLsb'_zero (n : BitVec 4) : (wordRd n).extractLsb' 0 4 = n := by
  revert n
  decide

theorem cmdOp_of_decodeCmd {w : BitVec 16} {i : Instr} (h : decodeCmd w = some i) : cmdOp w = opOf i := by
  have hw : encode i = .cmd w := (encode_of_decodeCmd h).1
  cases isCommand_of_decodeCmd h with
  | loadb b => cases hw; exact cmdOp_wordLoadb b
  | rd n => cases hw; exact cmdOp_wordRd n
  | nop | swon | swoff | start | detach | forceok => cases hw; decide

theorem regNumber_of_decodeCmd {w : BitVec 16} {n : BitVec 4} (h : decodeCmd w = some (.rd n)) : w.extractLsb' 0 4 = n := by
  have hw : encode (.rd n) = .cmd w := (encode_of_decodeCmd h).1
  cases hw
  exact wordRd_extractLsb'_zero n

/-- The tests of R201 in their order give the verdict: at most one of them is about the `OP` of the word. -/
theorem wordVerdict_eq_tests (e : Engine) (w : BitVec 16) :
    wordVerdict e w =
      if decodeCmd w = none then .rejIllegal
      else if (cmdOp w = 3 ∨ cmdOp w = 4) ∧ e.busy = true then .rejBusy
      else if cmdOp w = 6 ∧ e.state ≠ cError then .rejState
      else if cmdOp w = 7 ∧ 4 < (w.extractLsb' 0 4).toNat then .rejIllegal
      else .ack := by
  cases hi : decodeCmd w with
  | none => simp [wordVerdict, hi]
  | some i =>
    rw [cmdOp_of_decodeCmd hi]
    cases isCommand_of_decodeCmd hi with
    | rd n => simp [wordVerdict, hi, commandVerdict, opOf, regNumber_of_decodeCmd hi]
    | nop | swon | swoff | loadb | start | detach | forceok => simp [wordVerdict, hi, commandVerdict, opOf]

/-- No word enters `ERROR` (R201). -/
theorem CommandEffect.error_of {w : Option (BitVec 16)} {e e' : Engine} (h : CommandEffect w e e') (he : e'.state = cError) :
    e.state = cError := by
  cases h with
  | switched => exact he
  | loaded => exact he
  | launched | detached => exact absurd he (by simp)
  | forced hs => exact hs

/-- Settles O12: the two outcomes at the port, with the verdict that `wordVerdict_eq_tests` gives. -/
theorem everyWordIsAnsweredInOrder : Obligations.EveryWordIsAnsweredInOrder := by
  intro w s
  obtain ⟨t, ht, hframe⟩ := runWord_frame (some w) s
  have hanswer : Answers s (wordVerdict s.eng w) (.next t) := ht ▸ runWord_answers w s
  have herror := (runWord_effect ht).error_of
  suffices hr : ∃ r, t.out.resp = some r ∧ r.code = wordVerdict s.eng w
      ∧ (r.code ≠ .ack → r.data = 0 ∧ t = { s with out := { s.out with resp := some r } }) by
    obtain ⟨r, hresp, hcode, hrejected⟩ := hr
    refine ⟨t, r, ht, hresp, hcode.trans (wordVerdict_eq_tests _ _), hrejected, fun hack => ?_, hframe.event_eq, herror⟩
    cases hi : decodeCmd w with
    | none => simp [hcode, wordVerdict, hi] at hack
    | some i => exact ⟨i, rfl, (runWord_of_decodeCmd hi s).symm.trans ht⟩
  generalize wordVerdict s.eng w = v at hanswer ⊢
  generalize ho : Host.Outcome.next t = o at hanswer
  cases hanswer with
  | accepted f d => cases ho; exact ⟨⟨.ack, d⟩, rfl, rfl, fun hne => absurd rfl hne⟩
  | rejected hne => cases ho; exact ⟨⟨v, 0⟩, rfl, rfl, fun _ => ⟨rfl, rfl⟩⟩

/-! ## The engine's step does not see the port -/

/-- The same state with another response and another host's stream. -/
def State.atPort (r : Option Response) (hs : List HostItem) (s : State) : State :=
  { s with env := { s.env with script := hs }, out := { s.out with resp := r } }

/-- The same outcome, a next state with another response and another host's stream. -/
def outcomeAtPort (r : Option Response) (hs : List HostItem) (o : Outcome) : Outcome := andThen o fun t => .next (t.atPort r hs)

section
variable (r : Option Response) (hs : List HostItem) (s : State)

theorem lineWrite_atPort (l : Level) (k : Engine → Engine) :
    lineWrite l k (s.atPort r hs) = outcomeAtPort r hs (lineWrite l k s) := by
  cases hd : s.eng.dir with
  | output => rw [lineWrite_of_output (s := s.atPort r hs) hd, lineWrite_of_output hd]; rfl
  | input => rw [lineWrite_of_input (s := s.atPort r hs) hd, lineWrite_of_input hd]; rfl

theorem lineRead_atPort {k k' : Level → Outcome} (hk : ∀ l, k' l = outcomeAtPort r hs (k l)) :
    lineRead k' (s.atPort r hs) = outcomeAtPort r hs (lineRead k s) := by
  cases hd : s.eng.dir with
  | output => rw [lineRead_of_output (s := s.atPort r hs) hd, lineRead_of_output hd]; rfl
  | input => rw [lineRead_of_input (s := s.atPort r hs) hd, lineRead_of_input hd]; exact hk s.lineIn

theorem withPulse_atPort (seq : List Pulse) {k k' : Pulse → Outcome} (hk : ∀ p, k' p = outcomeAtPort r hs (k p)) :
    withPulse seq k' (s.atPort r hs) = outcomeAtPort r hs (withPulse seq k s) := by
  rcases lt_or_ge s.eng.phaseCounter.toNat seq.length with hlt | hge
  · have hp := List.getElem?_eq_getElem hlt
    rw [withPulse_of_some (s := s.atPort r hs) hp, withPulse_of_some hp, hk]
  · rw [withPulse_of_none (s := s.atPort r hs) hge, withPulse_of_none hge]
    rfl

theorem withDataBit_atPort {k k' : Bool → Outcome} (hk : ∀ b, k' b = outcomeAtPort r hs (k b)) :
    withDataBit k' (s.atPort r hs) = outcomeAtPort r hs (withDataBit k s) := by
  rcases le_or_gt s.eng.phaseCounter.toNat 7 with hle | hlt
  · rw [withDataBit_of_le (s := s.atPort r hs) hle, withDataBit_of_le hle]
    exact hk _
  · rw [withDataBit_of_lt (s := s.atPort r hs) hlt, withDataBit_of_lt hlt]
    rfl

theorem ite_atPort (c : Prop) [Decidable c] {o₁ o₂ o₁' o₂' : Outcome} (h₁ : o₁' = outcomeAtPort r hs o₁)
    (h₂ : o₂' = outcomeAtPort r hs o₂) : (if c then o₁' else o₂') = outcomeAtPort r hs (if c then o₁ else o₂) := by
  rw [h₁, h₂, apply_ite (outcomeAtPort r hs)]

theorem spingWait_atPort (m : BitVec 5) (p : Bool) :
    spingWait m p (s.atPort r hs) = outcomeAtPort r hs (spingWait m p s) := by
  refine lineRead_atPort r hs s fun l => ?_
  cases l with
  | high => rfl
  | low => exact ite_atPort r hs _ rfl rfl

theorem spingMeasure_atPort (m : BitVec 5) (p : Bool) :
    spingMeasure m p (s.atPort r hs) = outcomeAtPort r hs (spingMeasure m p s) := by
  refine lineRead_atPort r hs s fun l => ?_
  cases l with
  | high => exact ite_atPort r hs _ rfl rfl
  | low => exact ite_atPort r hs _ rfl rfl

/-- No handler looks at the response or at what the host presents next. -/
theorem handler_atPort {c : BitVec 5} {i : Instr} (hi : BusyHandler c i) :
    exec i (s.atPort r hs) = outcomeAtPort r hs (exec i s) := by
  cases hi with
  | mpingStart | waitSping | requestCtrl | waitData | recvDataStart | recvDataEnd | sendCfmMpingStart | waitCfmSping => rfl
  | mpingEnd | sendCfmMpingEnd => exact lineWrite_atPort r hs s _ _
  | spingStart | recvCfmSpingStart => exact spingWait_atPort r hs s _ _
  | spingEnd | recvCfmSpingEnd => exact spingMeasure_atPort r hs s _ _
  | startTransfer | endTransfer => exact withPulse_atPort r hs s _ fun _ => lineWrite_atPort r hs s _ _
  | sendData => exact withDataBit_atPort r hs s fun _ => lineWrite_atPort r hs s _ _
  | sendEndMping => exact ite_atPort r hs _ (lineWrite_atPort r hs s _ _) (lineWrite_atPort r hs s _ _)
  | finish => exact ite_atPort r hs _ rfl rfl

/-- The engine's step is the same whatever the port answered and the host presents next. -/
theorem engineTick_atPort : engineTick (s.atPort r hs) = outcomeAtPort r hs (engineTick s) := by
  cases hi : decodeState s.eng.state with
  | none => rw [engineTick_of_none (s := s.atPort r hs) hi, engineTick_of_none hi]; rfl
  | some i =>
    cases hb : s.eng.busy with
    | false => rw [engineTick_eq_next_of_rest (s := s.atPort r hs) hb, engineTick_eq_next_of_rest hb]; rfl
    | true =>
      rw [engineTick_eq (s := s.atPort r hs) hi, engineTick_eq hi]
      exact ite_atPort r hs _ (handler_atPort r hs { s with eng := s.eng.countDown } (busyHandler_of_decodeState hb hi)) rfl

end

/-! ## Words that disturb nothing -/

/-- `NOP`, `RD` and the illegal words. -/
def AnswersOnly (w : BitVec 16) : Prop := decodeCmd w = none ∨ decodeCmd w = some .nop ∨ ∃ n, decodeCmd w = some (.rd n)

theorem AnswersOnly.runWord_eq_respond {w : BitVec 16} (hw : AnswersOnly w) (s : State) :
    ∃ c d, runWord (some w) s = .next (s.respond c d) := by
  rcases hw with hi | hi | ⟨n, hi⟩
  · exact ⟨.rejIllegal, 0, runWord_of_illegal hi s⟩
  · exact ⟨.ack, 0, runWord_of_decodeCmd hi s⟩
  · rw [runWord_of_decodeCmd hi]
    rcases le_or_gt n.toNat 4 with hle | hlt
    · obtain ⟨d, hd⟩ := exists_regRead_of_le_four hle s.eng
      exact ⟨.ack, d, exec_rd_of_regRead hd⟩
    · exact ⟨.rejIllegal, 0, exec_rd_of_five_le hlt s⟩

/-- With no call in progress or waiting the controller does nothing (R222). -/
theorem controllerMove_of_idle {h : Controller} (hp : h.phase = .idle) (hw : h.waiting = []) (c : Cfg) (v : Int) :
    controllerMove c v h = ⟨none, h, none⟩ := by
  have hadmit : admitCalls v h h.waiting = h := by rw [hw, admitCalls, ← hw]
  rw [controllerMove, if_pos hp, hadmit, controllerAct, hp]
  rfl

/-- The state in which the host side presents `item` in the coming tick, and then `rest`. -/
def State.offer (item : HostItem) (rest : List HostItem) (s : State) : State :=
  { s with env := { s.env with script := item :: rest } }

/-- A tick takes the head of every stream of inputs; `WAITEV` alone may stay (R95). -/
theorem endTick_env {s : State} {item : HostItem} {rest : List HostItem} (h : s.env.script = item :: rest) (hi : item ≠ .waitev) :
    (endTick s).env = ⟨s.env.line.drop 1, s.env.vbus.drop 1, rest, s.env.rst.drop 1⟩ := by
  have hitem : s.hostItem = item := by rw [State.hostItem, h]
  simp [endTick, State.wireTick, State.dropInputs, hitem, hi, h]

theorem resetTick_offer_env {s : State} {item : HostItem} {rest : List HostItem} (hi : item ≠ .waitev) :
    (resetTick (s.offer item rest)).env = ⟨s.env.line.drop 1, s.env.vbus.drop 1, rest, s.env.rst.drop 1⟩ :=
  endTick_env rfl hi

/-- The host's part of a tick in which it presents a word, with no call in progress. -/
theorem hostPresent_offer_word {s : State} (hp : s.host.phase = .idle) (w : BitVec 16) (rest : List HostItem) :
    hostPresent (s.offer (.word w) rest).clearOut = (some w, (s.offer (.word w) rest).clearOut) := by
  rw [hostPresent_of_word (rest := rest) rfl, controllerHold_of_idle (h := (s.offer (.word w) rest).clearOut.host) hp]

/-- The host's part of a tick in which it presents nothing, with no call in progress or waiting. -/
theorem hostPresent_offer_quiet {s : State} (hp : s.host.phase = .idle) (hw : s.host.waiting = []) (rest : List HostItem) :
    hostPresent (s.offer .quiet rest).clearOut = (none, (s.offer .quiet rest).clearOut) := by
  have hmove (v : Int) := controllerMove_of_idle hp hw s.cfg v
  simp only [hostPresent, State.hostItem, State.offer, State.clearOut, hmove]
  rfl

/-- Two ticks that end alike but for the response and the observation. -/
def EndsAlike (u t : State) : Prop := u.eng = t.eng ∧ u.out.event = t.out.event ∧ u.host = t.host ∧ u.env = t.env

/-- An ordinary tick with a word that does no more than answer, beside the tick with nothing at the port. -/
theorem ordinaryTick_offer_quiet {s t : State} {w : BitVec 16} {rest : List HostItem} (hp : s.host.phase = .idle)
    (hwait : s.host.waiting = []) (hw : AnswersOnly w) (h : ordinaryTick (s.offer (.word w) rest) = .next t) :
    ∃ u, ordinaryTick (s.offer .quiet rest) = .next u ∧ EndsAlike u t := by
  obtain ⟨x, v, hx, hv, rfl⟩ := ordinaryTick_eq_next.1 h
  rw [hostPresent_offer_word hp] at hx
  obtain ⟨c, d, hrespond⟩ := hw.runWord_eq_respond (s.offer (.word w) rest).clearOut
  obtain rfl : (s.offer (.word w) rest).clearOut.respond c d = x := Host.Outcome.next.inj (hrespond.symm.trans hx)
  have hquiet : engineTick (s.offer .quiet rest).clearOut = .next (v.atPort none (.quiet :: rest)) := by
    have hcarry := engineTick_atPort none (.quiet :: rest) ((s.offer (.word w) rest).clearOut.respond c d)
    rw [hv] at hcarry
    exact hcarry
  have hhost : v.host = s.host := (engineTick_frame hv).host_eq
  have hscript : v.env.script = .word w :: rest := by rw [(engineTick_frame hv).env_eq]; rfl
  have hidle : v.host.phase = .idle := by rw [hhost, hp]
  have hsee : hostSee v = v := hostSee_of_idle hidle
  have hsee' : hostSee (v.atPort none (.quiet :: rest)) = v.atPort none (.quiet :: rest) := hostSee_of_idle hidle
  refine ⟨endTick (v.atPort none (.quiet :: rest)), ?_, ?_⟩
  · refine ordinaryTick_eq_next.2 ⟨_, _, ?_, hquiet, by rw [hsee']⟩
    rw [hostPresent_offer_quiet hp hwait]
    rfl
  · rw [hsee]
    exact ⟨rfl, rfl, rfl, (endTick_env rfl (item := .quiet) nofun).trans (endTick_env hscript nofun).symm⟩

/-- Settles O53: a reset tick looks at no word; in an ordinary one the engine's step sees the same registers. -/
theorem readsAndNopsDisturbNothing : Obligations.ReadsAndNopsDisturbNothing := by
  intro s t w rest hbench hidle hwait hw h
  change step (s.offer (.word w) rest) = .next t at h
  change ∃ u, step (s.offer .quiet rest) = .next u ∧ EndsAlike u t
  obtain ⟨hwf, ⟨hrst, rfl⟩ | ⟨hrst, hcodes, ⟨-, ht⟩ | ⟨w', hsymbol, -⟩⟩⟩ := step_eq_next h
  · refine ⟨resetTick (s.offer .quiet rest), step_of_rst hwf hrst, rfl, rfl, rfl, ?_⟩
    rw [resetTick_offer_env (by nofun), resetTick_offer_env (by nofun)]
  · rw [step_of_ready (s := s.offer .quiet rest) hwf hrst hcodes hbench]
    exact ordinaryTick_offer_quiet hidle hwait hw ht
  · exact absurd (hsymbol.symm.trans hbench) nofun

end Sys2Proof.Machine

/-! Family `45_session_controller.md`: the predicates on a VBUS reading (R221) and the phases of a call of `request_voltage`, from the
guard to the report (R222 to R229). -/

namespace Sys2Proof.Machine

/-! ## The predicates on a VBUS reading (R221) -/

theorem cablePresent_iff {v : Int} : cablePresent v = true ↔ 3500 < v := by
  rw [cablePresent, decide_eq_true_iff, gt_iff_lt]

theorem inBand_v5_iff {v : Int} : inBand .v5 v = true ↔ v ≠ -1 ∧ v < 5500 := by
  rw [inBand, Bool.and_eq_true, decide_eq_true_iff, decide_eq_true_iff]

theorem inBand_v9_iff {v : Int} : inBand .v9 v = true ↔ 7500 < v := by
  rw [inBand, decide_eq_true_iff, gt_iff_lt]

/-- Settles O56: each predicate is its comparison. -/
theorem vbusPredicates : Obligations.VbusPredicates :=
  ⟨fun _ => ⟨cablePresent_iff, inBand_v5_iff, inBand_v9_iff⟩, rfl, rfl, rfl, rfl⟩

/-! ## The guard and the calls that wait (R222 step 1, R223) -/

theorem guardHolds_iff {h : Controller} {t : Target} {v : Int} :
    guardHolds h t v = true ↔ h.achieved = some t ∧ inBand t v = true := by
  rw [guardHolds, Bool.and_eq_true, decide_eq_true_iff]

section
variable {c : Cfg} {v : Int} {h : Controller} {t : Target} {ts : List Target}

/-- A call the guard stops ends at once, and the next one is made. -/
theorem admitCalls_cons_of_guard (hg : guardHolds h t v = true) :
    admitCalls v h (t :: ts) = admitCalls v { h with requestedVoltage := t } ts := if_pos hg

/-- A call that passes the guard is the one in progress; the calls behind it wait. -/
theorem admitCalls_cons_of_not_guard (hg : ¬guardHolds h t v = true) :
    admitCalls v h (t :: ts) = { h with requestedVoltage := t, phase := .arm, waiting := ts } := if_neg hg

theorem controllerMove_eq_of_idle (hp : h.phase = .idle) : controllerMove c v h = controllerAct c v (admitCalls v h h.waiting) := by
  rw [controllerMove, if_pos hp]

/-- A single call that the guard stops: no command and no report. -/
theorem controllerMove_of_guard (hp : h.phase = .idle) (hw : h.waiting = [t]) (hg : guardHolds h t v = true) :
    controllerMove c v h = ⟨none, { h with requestedVoltage := t, waiting := [] }, none⟩ := by
  rw [controllerMove_eq_of_idle hp, hw, admitCalls_cons_of_guard hg, admitCalls, controllerAct, hp]
  rfl

/-- The first of the calls that wait, where it passes the guard, presents `SWON` in the same tick. -/
theorem controllerMove_of_not_guard (hp : h.phase = .idle) (hw : h.waiting = t :: ts) (hg : ¬guardHolds h t v = true) :
    controllerMove c v h =
      ⟨some wordSwon, { h with requestedVoltage := t, phase := .load (switchSettleTicks c), waiting := ts }, none⟩ := by
  rw [controllerMove_eq_of_idle hp, hw, admitCalls_cons_of_not_guard hg]
  rfl

end

/-- A call in the host's stream queues behind the ones that wait, and the controller moves. -/
theorem hostPresent_of_call {s : State} {ts : List Target} {rest : List HostItem} {m : HostMove}
    (hs : s.env.script = .call ts :: rest)
    (hm : controllerMove s.cfg s.vbus { s.host with waiting := s.host.waiting ++ ts } = m) :
    hostPresent s = (m.word, s.applyMove m) := by
  simp only [hostPresent, State.hostItem, hs, hm]

/-- A `detach()` in the host's stream is `DETACH` at the port (R229). -/
theorem hostPresent_of_detach {s : State} {rest : List HostItem} (hs : s.env.script = .detach :: rest) :
    hostPresent s = (some wordDetach, { s with host := abandonSession s.host }) := by
  simp only [hostPresent, State.hostItem, hs]

/-- Settles O57: the call is alone in the queue and the guard stops it, so the queue is empty again. -/
theorem repeatedRequestIsANoOp : Obligations.RepeatedRequestIsANoOp := by
  intro s t rest hs hp hw hachieved hband
  have hguard : guardHolds { s.host with waiting := s.host.waiting ++ [t] } t s.vbus = true :=
    guardHolds_iff.2 ⟨hachieved, hband⟩
  have hqueue : s.host.waiting ++ [t] = [t] := by rw [hw, List.nil_append]
  rw [hostPresent_of_call hs (controllerMove_of_guard hp hqueue hguard), State.applyMove, ← hw]

/-! ## A call in progress (R222 steps 2 to 4) -/

/-- While a call is in progress no other is made: the controller acts in the phase it is in. The phase stands in the state
as the literal `p`, so that the action there follows by computation. -/
theorem controllerMove_of_phase {c : Cfg} {v : Int} {h : Controller} {p : HostPhase} (hp : h.phase = p) (hne : p ≠ .idle) :
    controllerMove c v h = controllerAct c v { h with phase := p } := by
  subst hp
  rw [controllerMove, if_neg hne]

/-- Settles O58: the first move is that of a call that passes the guard, the others are the phases `load`, `launch` and
`waitEvent`. -/
theorem requestArmsLoadsAndStarts : Obligations.RequestArmsLoadsAndStarts := by
  intro c v h n
  refine ⟨fun t ts hp hw hg => ?admitted, fun hp => ?settling, fun hp => ?loading, fun hp => ?retrying, fun hp => ?starting,
    fun hp => ?awaiting⟩
  case admitted => exact controllerMove_of_not_guard hp hw (mt guardHolds_iff.1 hg)
  case settling => exact controllerMove_of_phase hp nofun
  case loading => exact controllerMove_of_phase hp nofun
  case retrying => exact controllerMove_of_phase hp nofun
  case starting => exact controllerMove_of_phase hp nofun
  case awaiting =>
    calc controllerMove c v h = ⟨none, { h with phase := .waitEvent }, none⟩ := controllerMove_of_phase hp nofun
      _ = ⟨none, h, none⟩ := by rw [← hp]

/-! ## The end of a handshake (R225, R226) -/

section
variable {c : Cfg} {v : Int} {h : Controller}

theorem controllerSee_none (c : Cfg) (v : Int) (h : Controller) : controllerSee c .none v h = h := ite_self h

theorem controllerSee_done (hp : h.phase = .waitEvent) : controllerSee c .done v h = { h with phase := .poll 1 0 } := if_pos hp

/-- An error without the cable ends the call, whatever is left of the retry budget (R225). -/
theorem controllerSee_error_of_cable_absent (hp : h.phase = .waitEvent) (hv : ¬3500 < v) :
    controllerSee c .error v h = { h with phase := .report .afcFail } :=
  (if_pos hp).trans (if_pos (Bool.eq_false_of_not_eq_true (mt cablePresent_iff.1 hv)))

/-- An error with the cable present is a matter of the retry budget (R226). -/
theorem controllerSee_error_of_cable_present (hp : h.phase = .waitEvent) (hv : 3500 < v) :
    controllerSee c .error v h =
      if h.retryCount = c.afcRetryMax then { h with phase := .giveUp }
      else { h with retryCount := h.retryCount + 1, phase := .launch (retryWaitTicks c) } :=
  (if_pos hp).trans (if_neg (by simp [cablePresent_iff.2 hv]))

end

/-- Settles O59: an error splits by the cable, then by the budget. -/
theorem retryDecision : Obligations.RetryDecision := by
  intro c v h hp
  refine ⟨controllerSee_none c v h, controllerSee_done hp, controllerSee_error_of_cable_absent hp, fun hv hspent => ?spent,
    fun hv hleft => ?left, fun g hg => controllerMove_of_phase hg nofun⟩
  case spent => rw [controllerSee_error_of_cable_present hp hv, if_pos hspent]
  case left => rw [controllerSee_error_of_cable_present hp hv, if_neg hleft]

/-! ## The polls, the report and `detach()` (R227 to R229) -/

/-- A poll that is due: a reading in band ends the call, one out of band leads to the next poll until the last (R227). -/
theorem controllerMove_of_poll_due {c : Cfg} {v : Int} {h : Controller} {k : Nat} (hp : h.phase = .poll k 0) :
    controllerMove c v h =
      if inBand h.requestedVoltage v then finishSession (success h.requestedVoltage) h
      else if k < c.vbusRetryMax then .quiet none { h with phase := .poll (k + 1) (vbusPollTicks c - 1) }
      else finishSession .afcFail h :=
  controllerMove_of_phase hp nofun

theorem success_ne_afcFail (t : Target) : success t ≠ .afcFail := by
  cases t <;> nofun

/-- A call that ends well records its voltage as achieved (R228). -/
theorem finishSession_success (t : Target) (h : Controller) :
    finishSession (success t) h = ⟨some wordDetach,
      { h with result := some (success t), achieved := some h.requestedVoltage, phase := .idle }, some (success t)⟩ := by
  rw [finishSession, if_neg (success_ne_afcFail t)]

/-- A call that fails leaves no voltage achieved (R228). -/
theorem finishSession_afcFail (h : Controller) :
    finishSession .afcFail h = ⟨some wordDetach,
      { h with result := some .afcFail, achieved := none, phase := .idle }, some .afcFail⟩ := rfl

/-- Settles O60: the branches of a due poll, each with the end of the call it leads to. -/
theorem pollsReportAndDetach : Obligations.PollsReportAndDetach := by
  refine ⟨fun c v h k n => ⟨fun hp => ?interval, fun hp hin => ?reached, fun hp hout hmore => ?again, fun hp hout hlast => ?last,
    fun hp => ?aborted⟩, fun s rest hs => hostPresent_of_detach hs⟩
  case interval => exact controllerMove_of_phase hp nofun
  case reached => rw [controllerMove_of_poll_due hp, if_pos hin, finishSession_success]
  case again =>
    rw [controllerMove_of_poll_due hp, if_neg (by simp [hout]), if_pos hmore]
    rfl
  case last => rw [controllerMove_of_poll_due hp, if_neg (by simp [hout]), if_neg hlast.not_gt, finishSession_afcFail]
  case aborted => exact controllerMove_of_phase hp nofun

end Sys2Proof.Machine

/-! Family `60_exceptions.md`: the error entry (R255). -/

namespace Sys2Proof.Machine

/-- A raised code sets `ERR`, as it is not the code 0 of no error. -/
theorem Engine.enterError_of_ne_zero {code : BitVec 3} (hcode : code ≠ 0) (phase : Bool) (e : Engine) :
    e.enterError code phase =
      { e with dir := .output, dout := .low, state := cError, lastError := code, errPhase := phase, err := true, timer := 0 } := by
  rw [← (errOf_eq_true_iff code).2 hcode]
  rfl

/-- Settles O24: the error entry is this register update, with the event. -/
theorem errorEntryRecordsAndReleases : Obligations.ErrorEntryRecordsAndReleases := by
  intro code phase s hcode
  rw [← Engine.enterError_of_ne_zero hcode]
  rfl

end Sys2Proof.Machine

/-! Family `70_reset_and_hazards.md`: the constant configuration (R293), and the bound on a handshake (R292). -/

namespace Sys2Proof.Machine

/-! ## The configuration -/

/-- An ordinary tick is the host's part, a word, the engine's step and the end of the tick; none writes the configuration. -/
theorem ordinaryTick_cfg {s t : State} (h : ordinaryTick s = .next t) : t.cfg = s.cfg := by
  obtain ⟨u, v, hu, hv, rfl⟩ := ordinaryTick_eq_next.1 h
  have hhost : (hostPresent s.clearOut).2.cfg = s.cfg := (hostPresent_frame s.clearOut).2.1
  have hword : u.cfg = (hostPresent s.clearOut).2.cfg := (commandFrame_of_runWord hu).cfg_eq
  have hengine : v.cfg = u.cfg := (engineTick_frame hv).cfg_eq
  exact hengine.trans (hword.trans hhost)

/-- Settles O42: over the three kinds of step. -/
theorem configurationIsConstant : Obligations.ConfigurationIsConstant := by
  intro s t h
  obtain ⟨hwf, ⟨-, rfl⟩ | ⟨-, -, ⟨-, ht⟩ | ⟨w, -, -, ht⟩⟩⟩ := step_eq_next h
  · exact ⟨rfl, hwf⟩
  · exact ⟨ordinaryTick_cfg ht, hwf⟩
  · exact ⟨(benchStep_frame ht).1, hwf⟩

/-! ## The most ticks to come in a round, from the handler of each state on (R292) -/

/-- From the handler of `WAIT_SPING` or `WAIT_CFM_SPING` on: the longest reception. -/
def receptionMax (c : Cfg) : Nat := tFirstPoll + (4 * c.waitSpingCount + 4 * c.spingMaxUi)

/-- From the handler of `SEND_CFM_MPING_START` on: the confirm ping and its reception. -/
def confirmMax (c : Cfg) : Nat := mpingTicks + (tRelease + receptionMax c)

/-- From the handler of `WAIT_DATA` on: the receive window and the settle time, then the confirmation. -/
def windowMax (c : Cfg) : Nat := tWaitData + (recvDataTicks + (tSettle + confirmMax c))

/-- From the rising edge of the end ping on. -/
def endPingMax (c : Cfg) : Nat := mpingTicks + (tRelease + windowMax c)

/-- From the first pulse of the end sequence on, which has at most 12 ticks with the shapes of R141. -/
def endSeqMax (c : Cfg) : Nat := 12 + endPingMax c

/-- From the first pulse of the start mark on, which has at most 4 ticks with the shapes of R147. -/
def startMarkMax (c : Cfg) : Nat := 4 + (4 * 8 + endSeqMax c)

/-- After the first reception: the frame of the byte, the end ping and the confirmation. -/
def byteMax (c : Cfg) : Nat := tLeadin + startMarkMax c

/-- The most ticks from the handler of a state, run with these registers, to the handler of `FINISH`. A state that plays pulses
has those from `PHASE_COUNTER` on to play; a reception has the samples left until its count is at its limit. -/
def ticksFrom (c : Cfg) (st : BitVec 5) (e : Engine) : Nat :=
  match st.toNat with
  | 2 => tRelease + (receptionMax c + byteMax c)
  | 3 => receptionMax c + byteMax c
  | 4 => 4 * (c.waitSpingCount - e.phaseCounter.toNat) + 4 * c.spingMaxUi + byteMax c
  | 5 => 4 * (c.spingMaxUi - e.phaseCounter.toNat) + tTurn + byteMax c
  | 6 => byteMax c
  | 7 => pulseTicks ((startMark c (e.pendingByte.getLsbD 7)).drop e.phaseCounter.toNat) + (4 * 8 + endSeqMax c)
  | 8 => 4 * (8 - e.phaseCounter.toNat) + endSeqMax c
  | 9 => pulseTicks ((endSeq c e.parity).drop e.phaseCounter.toNat) + endPingMax c
  | 10 => if e.phaseCounter = 0 then endPingMax c else tRelease + windowMax c
  | 11 => windowMax c
  | 12 => recvDataTicks + (tSettle + confirmMax c)
  | 13 => tSettle + confirmMax c
  | 14 => confirmMax c
  | 15 => tRelease + receptionMax c
  | 16 => receptionMax c
  | 17 => 4 * (c.waitSpingCount - e.phaseCounter.toNat) + 4 * c.spingMaxUi
  | 18 => 4 * (c.spingMaxUi - e.phaseCounter.toNat) + tTurn
  | 19 => 0
  | _ => mpingTicks + (tRelease + (receptionMax c + byteMax c))

/-- A round starts with the whole of `RoundMax` (R292). -/
theorem ticksFrom_mpingStart (c : Cfg) (e : Engine) : ticksFrom c cMpingStart e = roundMax c := by
  change mpingTicks + (tRelease + (receptionMax c + byteMax c)) = roundMax c
  simp only [roundMax, byteMax, startMarkMax, endSeqMax, endPingMax, windowMax, confirmMax, receptionMax, mpingTicks_eq,
    tRelease_eq, tFirstPoll_eq, recvDataTicks_eq]
  omega

/-- The most ticks the rounds after this one take, each with the gap before it (R186). -/
def laterRoundsMax (c : Cfg) (e : Engine) : Nat := (c.afcCommCnt - (e.roundCount.toNat + 1)) * (roundMax c + roundGapTicks c)

/-- The most ticks from the handler of `STATE` to the event of the handshake. -/
def ticksAfterDue (c : Cfg) (e : Engine) : Nat := ticksFrom c e.state e + laterRoundsMax c e

/-- The most ticks to the event at a tick boundary of a busy block: `TIMER` of them pass before the handler runs (R112). -/
def ticksToEvent (c : Cfg) (e : Engine) : Nat := e.timer.toNat + ticksAfterDue c e

/-! ## Every handler sets a delay within the bound -/

/-- If the handshake goes on, the delay the handler has set and the most ticks after it are within the most ticks before. -/
def KeepsBound (s t : State) : Prop := t.eng.busy = true → ticksToEvent s.cfg t.eng ≤ ticksAfterDue s.cfg s.eng

/-- A handler of the state `st` within a round leaves the rounds to come as they were. -/
theorem KeepsBound.inRound {s t : State} {st : BitVec 5} {d : Nat} (hs : s.eng.state = st)
    (htimer : t.eng.timer = BitVec.ofNat 32 d) (hround : t.eng.roundCount = s.eng.roundCount)
    (hle : d + ticksFrom s.cfg t.eng.state t.eng ≤ ticksFrom s.cfg st s.eng) : KeepsBound s t := by
  intro _
  have hd : t.eng.timer.toNat ≤ d := by rw [htimer]; exact Nat.mod_le _ _
  have hlater : laterRoundsMax s.cfg t.eng = laterRoundsMax s.cfg s.eng := by rw [laterRoundsMax, hround, laterRoundsMax]
  rw [ticksToEvent, ticksAfterDue, ticksAfterDue, hlater, hs]
  omega

theorem lineWrite_keepsBound {s t : State} {st : BitVec 5} {l : Level} {k : Engine → Engine} {d : Nat} (hs : s.eng.state = st)
    (h : lineWrite l k s = .next t) (htimer : (k { s.eng with dout := l }).timer = BitVec.ofNat 32 d)
    (hround : (k { s.eng with dout := l }).roundCount = s.eng.roundCount)
    (hle : d + ticksFrom s.cfg (k { s.eng with dout := l }).state (k { s.eng with dout := l }) ≤ ticksFrom s.cfg st s.eng) :
    KeepsBound s t := by
  obtain ⟨-, rfl⟩ := lineWrite_eq_next.1 h
  exact .inRound hs htimer hround hle

/-- An error ends the handshake (R255). -/
theorem keepsBound_error (s u : State) (k : BitVec 3) (p : Bool) : KeepsBound s (raiseSpingError k p u) := nofun

/-! ## The receptions -/

/-- The most ticks from the state after a valid SPING to `FINISH`. -/
def Reception.afterMax (c : Cfg) : Reception → Nat
  | .first => byteMax c
  | .confirm => 0

section
variable (r : Reception) (c : Cfg) (e : Engine)

theorem Reception.ticksFrom_wait :
    ticksFrom c r.wait e = 4 * (c.waitSpingCount - e.phaseCounter.toNat) + 4 * c.spingMaxUi + r.afterMax c := by cases r <;> rfl

theorem Reception.ticksFrom_measure :
    ticksFrom c r.measure e = 4 * (c.spingMaxUi - e.phaseCounter.toNat) + 4 + r.afterMax c := by cases r <;> rfl

theorem Reception.ticksFrom_valid : ticksFrom c r.valid e = r.afterMax c := by cases r <;> rfl

end

section
variable {s t : State} {r : Reception} (hwf : cfgWf s.cfg = true) (hp : phaseOk s.cfg s.eng)
include hwf hp

/-- The wait windows (R171, R184): each LOW sample is one of those the window has left. -/
theorem spingWait_keepsBound (hs : s.eng.state = r.wait) (h : spingWait r.measure r.phase s = .next t) : KeepsBound s t := by
  have hlt : s.eng.phaseCounter.toNat < s.cfg.waitSpingCount := (phaseOk_of_wait (by cases r <;> simp [hs, Reception.wait])).1 hp
  obtain ⟨-, hwait, hmin, hminmax, -⟩ := cfgWf_bounds hwf
  have hsucc := phaseCounter_succ_toNat (hlt.trans_le hwait)
  cases hd : s.eng.dir with
  | output => rw [spingWait_of_output hd] at h; cases h
  | input =>
    cases hl : s.lineIn with
    | high =>
      rw [spingWait_of_high hd hl] at h
      cases h
      refine .inRound (d := 4) hs rfl rfl ?_
      rw [r.ticksFrom_wait, r.ticksFrom_measure, show (1 : BitVec 8).toNat = 1 from rfl]
      omega
    | low =>
      rw [spingWait_of_low hd hl] at h
      split at h <;> cases h
      · exact keepsBound_error _ _ _ _
      · refine .inRound (d := 4) hs rfl rfl ?_
        rw [hs, r.ticksFrom_wait, r.ticksFrom_wait, hsucc]
        omega

/-- The measurements (R172, R185): each HIGH sample is one of those a SPING may still have. -/
theorem spingMeasure_keepsBound (hs : s.eng.state = r.measure) (h : spingMeasure r.valid r.phase s = .next t) :
    KeepsBound s t := by
  have hle := ((phaseOk_of_measure (by cases r <;> simp [hs, Reception.measure])).1 hp).2
  obtain ⟨-, -, -, -, hmax, -⟩ := cfgWf_bounds hwf
  have hsucc := phaseCounter_succ_toNat (p := s.eng.phaseCounter) (by omega)
  cases hd : s.eng.dir with
  | output => rw [spingMeasure_of_output hd] at h; cases h
  | input =>
    cases hl : s.lineIn with
    | high =>
      rw [spingMeasure_of_high hd hl] at h
      split at h <;> cases h
      · exact keepsBound_error _ _ _ _
      · refine .inRound (d := 4) hs rfl rfl ?_
        rw [hs, r.ticksFrom_measure, r.ticksFrom_measure, hsucc]
        omega
    | low =>
      rw [spingMeasure_of_low hd hl] at h
      split at h <;> cases h
      · exact keepsBound_error _ _ _ _
      · refine .inRound (d := 4) hs rfl rfl ?_
        rw [r.ticksFrom_valid, r.ticksFrom_measure]
        omega

end

/-! ## The pulses of a byte -/

/-- The pulse that is played next, and the rest of its sequence. -/
theorem pulseTicks_drop {l : List Pulse} {n : Nat} {p : Pulse} (h : l[n]? = some p) :
    pulseTicks (l.drop n) = p.ticks + pulseTicks (l.drop (n + 1)) := by
  obtain ⟨hn, rfl⟩ := List.getElem?_eq_some_iff.1 h
  rw [List.drop_eq_getElem_cons hn, pulseTicks]

theorem DefaultShapes.pulseTicks_startMark_le {c : Cfg} (h : DefaultShapes c) (b7 : Bool) : pulseTicks (startMark c b7) ≤ 4 := by
  rw [h.startMark_eq]
  cases b7 <;> decide

theorem DefaultShapes.pulseTicks_endSeq_le {c : Cfg} (h : DefaultShapes c) (p : Bool) : pulseTicks (endSeq c p) ≤ 12 := by
  rw [h.endSeq_eq]
  cases p <;> decide

/-- `withPulse` answers a next state only where a pulse is selected. -/
theorem withPulse_eq_next {s t : State} {seq : List Pulse} {k : Pulse → Outcome} (h : withPulse seq k s = .next t) :
    ∃ p, seq[s.eng.phaseCounter.toNat]? = some p ∧ k p = .next t := by
  unfold withPulse at h
  split at h
  next p hp => exact ⟨p, hp, h⟩
  next => cases h

section
variable {s t : State} {st : BitVec 5} {l : Level}

/-- The shape of the three states that play a sequence: `c'` follows the last element, else the next element does. -/
theorem lineWrite_playing_keepsBound {last : Engine → Prop} [DecidablePred last] {c' : BitVec 5}
    {following : Engine → BitVec 8} {d : Nat} (hs : s.eng.state = st)
    (h : lineWrite l (fun e => if last e then (e.setPhase 0).goTo c' d else (e.setPhase (following e)).stay d) s = .next t)
    (hlast : last { s.eng with dout := l } →
      d + ticksFrom s.cfg c' ((({ s.eng with dout := l } : Engine).setPhase 0).goTo c' d) ≤ ticksFrom s.cfg st s.eng)
    (hmore : ¬last { s.eng with dout := l } →
      d + ticksFrom s.cfg st ((({ s.eng with dout := l } : Engine).setPhase (following { s.eng with dout := l })).stay d)
        ≤ ticksFrom s.cfg st s.eng) : KeepsBound s t := by
  obtain ⟨-, rfl⟩ := lineWrite_eq_next.1 h
  by_cases hl : last { s.eng with dout := l }
  · simp only [if_pos hl]
    exact .inRound hs rfl rfl (hlast hl)
  · simp only [if_neg hl]
    subst hs
    exact .inRound rfl rfl rfl (hmore hl)

end

section
variable {s t : State} (hp : phaseOk s.cfg s.eng)
include hp

theorem startTransfer_keepsBound (hs : s.eng.state = cStartTransfer) (h : execStartTransfer s = .next t) : KeepsBound s t := by
  have hle : s.eng.phaseCounter.toNat ≤ 1 := by simpa [phaseOk, hs] using hp
  obtain ⟨p, hpulse, hx⟩ := withPulse_eq_next h
  have hdrop := pulseTicks_drop hpulse
  refine lineWrite_playing_keepsBound (following := fun _ => 1) hs hx (fun _ => ?last) fun hne => ?more
  case last =>
    change p.ticks + (4 * 8 + _) ≤ pulseTicks (List.drop _ _) + (4 * 8 + _)
    omega
  case more =>
    have h0 : s.eng.phaseCounter.toNat = 0 := by simp only at hne; bv_omega
    rw [h0] at hdrop
    change p.ticks + (pulseTicks (List.drop 1 _) + _) ≤ pulseTicks (List.drop s.eng.phaseCounter.toNat _) + _
    rw [h0, hdrop, Nat.add_assoc]
    exact le_rfl

theorem sendData_keepsBound (hshapes : DefaultShapes s.cfg) (hs : s.eng.state = cSendData) (h : execSendData s = .next t) :
    KeepsBound s t := by
  have hle : s.eng.phaseCounter.toNat ≤ 7 := by simpa [phaseOk, hs] using hp
  have hseq := hshapes.pulseTicks_endSeq_le s.eng.parity
  rw [execSendData, withDataBit_of_le hle] at h
  refine lineWrite_playing_keepsBound hs h (fun h7 => ?last) fun hne => ?more
  case last =>
    change 4 + (pulseTicks (endSeq s.cfg s.eng.parity) + endPingMax s.cfg)
      ≤ 4 * (8 - s.eng.phaseCounter.toNat) + (12 + endPingMax s.cfg)
    omega
  case more =>
    have hsucc := phaseCounter_succ_toNat (p := s.eng.phaseCounter) (by omega)
    have hlt : s.eng.phaseCounter.toNat < 7 := by simp only at hne; bv_omega
    change 4 + (4 * (8 - (s.eng.phaseCounter + 1).toNat) + _) ≤ 4 * (8 - s.eng.phaseCounter.toNat) + _
    omega

theorem endTransfer_keepsBound (hwf : cfgWf s.cfg = true) (hs : s.eng.state = cEndTransfer) (h : execEndTransfer s = .next t) :
    KeepsBound s t := by
  have hlt : s.eng.phaseCounter.toNat < (endSeq s.cfg s.eng.parity).length := by simpa [phaseOk, hs] using hp
  have hlen := (endSeq_fits hwf s.eng.parity).2.1
  obtain ⟨p, hpulse, hx⟩ := withPulse_eq_next h
  have hdrop := pulseTicks_drop hpulse
  refine lineWrite_playing_keepsBound hs hx (fun _ => ?last) fun _ => ?more
  case last =>
    change p.ticks + endPingMax s.cfg ≤ pulseTicks (List.drop _ _) + endPingMax s.cfg
    omega
  case more =>
    change p.ticks + (pulseTicks (List.drop (s.eng.phaseCounter + 1).toNat _) + _) ≤ pulseTicks (List.drop _ _) + _
    rw [hdrop, phaseCounter_succ_toNat (by omega), Nat.add_assoc]
    exact le_rfl

end

theorem sendEndMping_keepsBound {s t : State} (hs : s.eng.state = cSendEndMping) (h : execSendEndMping s = .next t) :
    KeepsBound s t := by
  unfold execSendEndMping at h
  split at h
  next h0 =>
    refine lineWrite_keepsBound hs h rfl rfl ?_
    change mpingTicks + ticksFrom s.cfg s.eng.state _ ≤ if _ then _ else _
    rw [hs, if_pos h0]
    exact le_rfl
  next hne =>
    refine lineWrite_keepsBound hs h rfl rfl ?_
    change tRelease + windowMax s.cfg ≤ if _ then _ else _
    rw [if_neg hne]

/-! ## The end of a round -/

/-- A round that is counted takes a gap and a `RoundMax` off those to come, if it is not the last (R186). -/
theorem laterRoundsMax_countRound {c : Cfg} {e : Engine} (hcnt : c.afcCommCnt ≤ 255)
    (hlt : (e.roundCount + 1).toNat < c.afcCommCnt) (hround : e.roundCount.toNat < c.afcCommCnt) :
    roundGapTicks c + (roundMax c + laterRoundsMax c e.countRound) = laterRoundsMax c e := by
  have hsucc := phaseCounter_succ_toNat (hround.trans_le hcnt)
  obtain ⟨n, hn⟩ := Nat.exists_eq_add_of_lt (hsucc ▸ hlt)
  have hbefore : c.afcCommCnt - (e.roundCount.toNat + 1) = n + 1 := by omega
  have hafter : c.afcCommCnt - (e.roundCount.toNat + 1 + 1) = n := by omega
  rw [laterRoundsMax, laterRoundsMax, Engine.countRound_roundCount, hsucc, hbefore, hafter, Nat.succ_mul]
  omega

/-- After the last round there is nothing to come; before it the gap and a whole round are (R186). -/
theorem finish_keepsBound {s t : State} (hwf : cfgWf s.cfg = true) (hround : s.eng.roundCount.toNat < s.cfg.afcCommCnt)
    (h : execFinish s = .next t) : KeepsBound s t := by
  obtain ⟨-, -, -, -, -, -, hcnt, -⟩ := cfgWf_bounds hwf
  rcases Nat.lt_or_ge (s.eng.roundCount + 1).toNat s.cfg.afcCommCnt with hlt | hle
  · rw [execFinish_of_lt hlt] at h
    cases h
    intro _
    have hgap : (BitVec.ofNat 32 (roundGapTicks s.cfg)).toNat ≤ roundGapTicks s.cfg := Nat.mod_le _ _
    have hlater := laterRoundsMax_countRound hcnt hlt hround
    change (BitVec.ofNat 32 (roundGapTicks s.cfg)).toNat
      + (ticksFrom s.cfg cMpingStart _ + laterRoundsMax s.cfg s.eng.countRound) ≤ _ + laterRoundsMax s.cfg s.eng
    rw [ticksFrom_mpingStart]
    omega
  · rw [execFinish_of_le hle] at h
    cases h
    nofun

/-! ## The engine's step -/

/-- The handlers along the pipeline of R165; the parts of a round are the delays they set. -/
theorem handler_keepsBound {s t : State} {i : Instr} (hwf : cfgWf s.cfg = true) (hshapes : DefaultShapes s.cfg)
    (hdue : s.eng.DueInv s.cfg) (hi : BusyHandler s.eng.state i) (h : exec i s = .next t) : KeepsBound s t := by
  generalize hs : s.eng.state = st at hi
  have hp := hdue.phase_ok
  cases hi with
  | mpingStart => cases h; exact .inRound hs rfl rfl le_rfl
  | mpingEnd => exact lineWrite_keepsBound hs h rfl rfl le_rfl
  | waitSping => cases h; exact .inRound hs rfl rfl (Nat.add_assoc _ _ _).ge
  | spingStart => exact spingWait_keepsBound (r := .first) hwf hp hs h
  | spingEnd => exact spingMeasure_keepsBound (r := .first) hwf hp hs h
  | requestCtrl =>
    cases h
    have hmark := hshapes.pulseTicks_startMark_le (s.eng.pendingByte.getLsbD 7)
    exact .inRound hs rfl rfl (Nat.add_le_add_left (Nat.add_le_add_right hmark _) _)
  | startTransfer => exact startTransfer_keepsBound hp hs h
  | sendData => exact sendData_keepsBound hp hshapes hs h
  | endTransfer => exact endTransfer_keepsBound hp hwf hs h
  | sendEndMping => exact sendEndMping_keepsBound hs h
  | waitData => cases h; exact .inRound hs rfl rfl le_rfl
  | recvDataStart => cases h; exact .inRound hs rfl rfl le_rfl
  | recvDataEnd => cases h; exact .inRound hs rfl rfl le_rfl
  | sendCfmMpingStart => cases h; exact .inRound hs rfl rfl le_rfl
  | sendCfmMpingEnd => exact lineWrite_keepsBound hs h rfl rfl le_rfl
  | waitCfmSping => cases h; exact .inRound hs rfl rfl le_rfl
  | recvCfmSpingStart => exact spingWait_keepsBound (r := .confirm) hwf hp hs h
  | recvCfmSpingEnd => exact spingMeasure_keepsBound (r := .confirm) hwf hp hs h
  | finish => exact finish_keepsBound hwf hdue.round_lt h

/-- A tick to wait is one fewer, and a due handler keeps the bound. -/
theorem engineTick_ticksToEvent_lt {s t : State} (hwf : cfgWf s.cfg = true) (hshapes : DefaultShapes s.cfg)
    (hinv : s.eng.Inv s.cfg) (hb : s.eng.busy = true) (h : engineTick s = .next t) (hbt : t.eng.busy = true) :
    ticksToEvent s.cfg t.eng < ticksToEvent s.cfg s.eng := by
  obtain ⟨i, hi⟩ := decodeState_of_codesLegal hinv.codesLegal
  have hpos := hinv.timer_pos hb
  rcases Nat.lt_or_ge s.eng.timer.toNat 2 with ht | ht
  · have ht := Nat.le_of_lt_succ ht
    rw [engineTick_of_le_one hi hb ht] at h
    have hdue : ({ s.eng with timer := 0 } : Engine).DueInv s.cfg := Engine.PortInv.due (.inl hinv) hb ht
    have hkeeps := handler_keepsBound (s := { s with eng := { s.eng with timer := 0 } }) hwf hshapes hdue
      (busyHandler_of_decodeState hb hi) h hbt
    exact hkeeps.trans_lt (Nat.lt_add_of_pos_left hpos)
  · rw [engineTick_of_two_le hi hb ht] at h
    cases h
    have htimer : (s.eng.elapse 1).timer.toNat = s.eng.timer.toNat - 1 := s.eng.elapse_timer_toNat 1
    change (s.eng.elapse 1).timer.toNat + ticksAfterDue s.cfg s.eng < s.eng.timer.toNat + ticksAfterDue s.cfg s.eng
    omega

/-! ## A handshake in a quiet environment -/

/-- A handshake in progress, with nothing to come from the host and no `rst`: the adapter is free. -/
structure State.Handshaking (s : State) : Prop where
  inv : s.Inv
  quiet : s.Quiet
  shapes : DefaultShapes s.cfg
  busy : s.eng.busy = true

/-- A step of it goes on with no event and fewer ticks to come, or is the one with the event, after which the block is at rest. -/
theorem State.Handshaking.step {s : State} (h : s.Handshaking) :
    ∃ t, Machine.step s = .next t ∧ t.Ready ∧ t.Quiet
      ∧ (t.Handshaking ∧ t.out.event = .none ∧ ticksToEvent t.cfg t.eng < ticksToEvent s.cfg s.eng
        ∨ t.eng.busy = false ∧ t.out.event ≠ .none) := by
  obtain ⟨hinv, hquiet, hshapes, hb⟩ := h
  have hready := hquiet.ready hinv.cfg_wf hinv.eng_inv.codesLegal
  obtain ⟨u, hu, huinv⟩ := engineTick_meetsInv (s := { s with out := Out.none }) hinv.cfg_wf (.inl hinv.eng_inv)
  obtain ⟨t, ht, htready, htquiet, heng, hout⟩ := step_of_quiet_engineTick hready hquiet hu huinv.codesLegal
  refine ⟨t, ht, htready, htquiet, ?_⟩
  have hcfg := (configurationIsConstant s t ht).1
  rw [← heng] at huinv
  have hexit := (engineTick_exit (s := { s with out := Out.none }) hb hu).event_of
  rw [← heng, ← hout] at hexit
  rcases hexit with ⟨hbt, hev⟩ | ⟨hst, hev⟩ | ⟨hst, hev⟩
  · have hlt := engineTick_ticksToEvent_lt (s := { s with out := Out.none }) hinv.cfg_wf hshapes hinv.eng_inv hb hu
      (heng ▸ hbt)
    refine .inl ⟨⟨stepKeepsTheInvariant s t hinv ht, htquiet, hcfg ▸ hshapes, hbt⟩, hev, ?_⟩
    rw [hcfg, heng]
    exact hlt
  · exact .inr ⟨(busy_eq_false_iff _).2 (.inr (.inl hst)), by rw [hev]; nofun⟩
  · exact .inr ⟨(busy_eq_false_iff _).2 (.inr (.inr hst)), by rw [hev]; nofun⟩

/-- Runs from a state do not stop, have an event exactly at step `k + 1`, and leave the block at rest from that step on. -/
def State.EventAt (k : Nat) (s : State) : Prop :=
  ∀ n, ∃ t, runs (n + 1) s = .next t ∧ (t.out.event ≠ .none ↔ n = k) ∧ (k ≤ n → t.eng.busy = false)

/-- The step with the event; the block rests from then on (`quiescentStaysQuiescent`). -/
theorem State.EventAt.now {s t : State} (h : Machine.step s = .next t) (hready : t.Ready) (hquiet : t.Quiet)
    (hb : t.eng.busy = false) (hev : t.out.event ≠ .none) : s.EventAt 0 := by
  intro n
  rw [runs_succ, h, andThen_next]
  cases n with
  | zero => exact ⟨t, rfl, by simpa using hev, fun _ => hb⟩
  | succ n =>
    obtain ⟨v, hv, heng, hout⟩ := quiescentStaysQuiescent t n hready hquiet hb
    exact ⟨v, hv, by rw [hout]; simp [Out.none], fun _ => by rw [heng]; exact hb⟩

theorem State.EventAt.later {s t : State} {k : Nat} (h : Machine.step s = .next t) (hev : t.out.event = .none)
    (ht : t.EventAt k) : s.EventAt (k + 1) := by
  intro n
  rw [runs_succ, h, andThen_next]
  cases n with
  | zero => exact ⟨t, rfl, by simp [hev], fun hk => absurd hk (Nat.not_succ_le_zero k)⟩
  | succ n => simpa using ht n

/-- By induction on the bound: every step but the one with the event takes a tick off it. -/
theorem State.Handshaking.eventAt {s : State} (h : s.Handshaking) : ∃ k, k < ticksToEvent s.cfg s.eng ∧ s.EventAt k := by
  generalize hm : ticksToEvent s.cfg s.eng = m
  induction m using Nat.strong_induction_on generalizing s with
  | _ m ih =>
    obtain ⟨t, ht, hready, hquiet, ⟨hgo, hev, hlt⟩ | ⟨hb, hev⟩⟩ := h.step
    · obtain ⟨k, hk, hat⟩ := ih _ (hm ▸ hlt) hgo rfl
      exact ⟨k + 1, by omega, hat.later ht hev⟩
    · have hpos := h.inv.eng_inv.timer_pos h.busy
      refine ⟨0, ?_, .now ht hready hquiet hb hev⟩
      rw [← hm, ticksToEvent]
      omega

/-! ## The tick of `START` -/

/-- A state after the `START` of its tick and the first handler, which is due at once (R112, R168, R205). -/
def State.started (s : State) : State :=
  { s with eng := (s.eng.launch.lineOutput .high).goTo cMpingEnd mpingTicks, out := { Out.none with resp := some ⟨.ack, 0⟩ } }

/-- The tick of an accepted `START` (R71). -/
theorem step_of_start {s : State} (hr : s.Ready) (hscript : s.env.script = [.word wordStart]) (hidle : s.host.phase = .idle)
    (hb : s.eng.busy = false) : step s = .next (endTick s.started) := by
  have hdecode : decodeCmd wordStart = some .start := by decide
  have hlaunch : exec .start { s with host := controllerHold s.host, out := Out.none }
      = .next { s with eng := s.eng.launch, out := { Out.none with resp := some ⟨.ack, 0⟩ } } := by
    rw [controllerHold_of_idle hidle]
    exact exec_start_of_rest (s := { s with out := Out.none }) hb
  have htick : engineTick { s with eng := s.eng.launch, out := { Out.none with resp := some ⟨.ack, 0⟩ } } = .next s.started :=
    engineTick_of_le_one (i := .mpingStart) rfl rfl (Nat.zero_le 1)
  have hsee : hostSee s.started = s.started := hostSee_of_idle hidle
  rw [stepRunsThePresentedCommand s _ _ _ hr hscript hdecode, hlaunch, andThen_next, htick, andThen_next, hsee]

/-- With the last word of the host's stream nothing is to come any more. -/
theorem quiet_endTick_of_lastWord {s : State} {w : BitVec 16} (hscript : s.env.script = [.word w]) (hrst : s.env.rst = [])
    (hbench : s.bench = none) (hidle : s.host.phase = .idle) (hwait : s.host.waiting = []) : (endTick s).Quiet where
  script_nil := by simp [endTick, State.dropInputs, State.wireTick, State.hostItem, hscript]
  rst_nil := by simp [endTick, State.dropInputs, State.wireTick, hrst]
  bench_none := hbench
  phase_idle := hidle
  waiting_nil := hwait

/-- The whole handshake is to come: one `RoundMax` for each round, and a gap between two (R292). -/
theorem ticksToEvent_started {s : State} (hwf : cfgWf s.cfg = true) :
    ticksToEvent s.cfg s.started.eng = handshakeMax s.cfg := by
  obtain ⟨-, -, -, -, -, hcnt, -⟩ := cfgWf_bounds hwf
  obtain ⟨n, hn⟩ := Nat.exists_eq_add_of_le' hcnt
  rw [ticksToEvent, ticksAfterDue, ← Nat.add_assoc]
  change ticksFrom s.cfg cMpingStart s.eng + (s.cfg.afcCommCnt - 1) * (roundMax s.cfg + roundGapTicks s.cfg) = handshakeMax s.cfg
  rw [ticksFrom_mpingStart, handshakeMax, hn, Nat.add_sub_cancel]
  ring

/-- Settles O50: after the tick of `START` the whole handshake is to come, and each step takes a tick off the bound. -/
theorem handshakeEndsInBoundedTime : Obligations.HandshakeEndsInBoundedTime := by
  intro s hinv hshapes hb hscript hrst hbench hidle hwait
  have hready : s.Ready := ⟨hinv.cfg_wf, by rw [State.rstNow, hrst], hinv.eng_inv.codesLegal, hbench⟩
  have hstep := step_of_start hready hscript hidle hb
  have hquiet : (endTick s.started).Quiet := quiet_endTick_of_lastWord (s := s.started) hscript hrst hbench hidle hwait
  have hstarted : (endTick s.started).Handshaking := ⟨stepKeepsTheInvariant _ _ hinv hstep, hquiet, hshapes, rfl⟩
  obtain ⟨k, hk, hat⟩ := hstarted.eventAt
  have hmax : k < handshakeMax s.cfg := hk.trans_eq (ticksToEvent_started hinv.cfg_wf)
  exact ⟨k + 1, hmax, hat.later hstep rfl⟩

end Sys2Proof.Machine
